-- ==== Sys2Proof/Word.lean ====
section
/-! DEFINITION. The word and byte types of the engine (R7, R20) and nothing else: every operation on them that a
test could show wrong stands under `Machine/`. -/

namespace Sys2Proof

/-- A word: a 32-bit unsigned value, arithmetic modulo 2^32 (R7, R8). -/
abbrev Word := BitVec 32

/-- A byte: an 8-bit unsigned value (R7). -/
abbrev Byte := BitVec 8

/-- A 16-word array: the shape of S and of W (R20, R24). -/
abbrev Words := Vector Word 16

/-- An index into a 16-word array: a 4-bit number, arithmetic modulo 16 (R20). -/
abbrev Index := Fin 16

end Sys2Proof
end

