-- ==== Sys2Proof/Syntax.lean ====
section
/-! DEFINITION. The instructions: one constructor per row of `spec/opcode_table.json`, and the two formats their
encodings have (CMD64, R71; PH4, R80). -/

namespace Sys2Proof

/-- The three host commands, with the length fields their command word carries, and the fourteen micro-operations,
which carry none: they take their round and word index from SEQ (R26). The operand bytes of a command come on DIN
(R57), so they are no part of the term. -/
inductive Instr where
  /-- INIT with NLEN nonce bytes and KLEN key bytes (R72, R77, R110). -/
  | init (nlen klen : Nat)
  /-- PROCESS of LEN data bytes (R73, R77, R130). -/
  | process (len : Nat)
  /-- RESET (R74, R160). -/
  | reset
  /-- KS_CHECK (R111). -/
  | ksCheck
  /-- KS_PACK (R112). -/
  | ksPack
  /-- KS_NONCE (R113). -/
  | ksNonce
  /-- KS_DIFFUSE (R114). -/
  | ksDiffuse
  /-- KS_COMMIT (R115). -/
  | ksCommit
  /-- BLK_LOAD (R132). -/
  | blkLoad
  /-- BLK_INJECT (R133). -/
  | blkInject
  /-- BLK_COL (R134). -/
  | blkCol
  /-- BLK_DIAG (R135). -/
  | blkDiag
  /-- BLK_XOR (R138). -/
  | blkXor
  /-- BLK_CTRINC (R139). -/
  | blkCtrinc
  /-- BLK_RATCHET (R140). -/
  | blkRatchet
  /-- BLK_NEXT (R141). -/
  | blkNext
  /-- RST_CLEAR (R161). -/
  | rstClear
deriving DecidableEq, Repr

/-- An encoded instruction, in one of the table's two formats. -/
inductive InstrWord where
  /-- CMD64: a command word on the port CMD (R70, R71). -/
  | cmd64 (cw : BitVec 64)
  /-- PH4: a sequencer phase code (R80). -/
  | ph4 (code : BitVec 4)
deriving DecidableEq, Repr

/-- Why a word is no instruction of the table: the cases of R76 for a command word, and the two phase codes of R80
that are no micro-operation. -/
inductive DecodeReject where
  /-- OPC is 0x00 or 0x04 to 0xFF (R76). -/
  | opcode
  /-- OPC is 0x01 and RSV is not 0 (R76). -/
  | initReserved
  /-- OPC is 0x02 and CW[55:32] is not 0 (R76). -/
  | processUpper
  /-- OPC is 0x03 and CW[55:0] is not 0 (R76). -/
  | resetOperand
  /-- Phase code 0x0, IDLE: nothing to execute (R80). -/
  | idleCode
  /-- Phase code 0xF: never entered, not a phase (R80). -/
  | unusedCode
deriving DecidableEq, Repr

end Sys2Proof
end

