-- ==== Sys2Proof/Config.lean ====
section
/-! DEFINITION. The parameters of R5 and R6, and the values the spec leaves free. The widths WORD_W, N_WORDS, CTR_W,
CMD_W, PH_W and KEYBUF_BYTES are the types of the things they measure; the rotation amounts stand in `T` and `Mix`. -/

namespace Sys2Proof

/-- The three neighbour offsets of a pass (R94). -/
structure Offsets where
  o1 : Index
  o2 : Index
  o3 : Index
deriving DecidableEq, Repr

/-- A byte order of the keystream serialisation (R6, R52). -/
inductive ByteOrder where
  | little
  | big
deriving DecidableEq, Repr

/-- The multiplication constant K of T and Mix (R5, R98). -/
def Config.k : Word := 0x6170766F#32

/-- COL_OFFS: the key schedule, the column pass and the ratchet (R5). -/
def Config.colOffs : Offsets := ⟨1, 7, 13⟩

/-- DIA_OFFS: the diagonal pass (R5). -/
def Config.diaOffs : Offsets := ⟨3, 9, 14⟩

/-- DIA_STRIDE: the diagonal pass visits (5 i) mod 16 (R5). -/
def Config.diaStride : Index := 5

/-- KS_ROUNDS: diffusion rounds of the key schedule (R5). -/
def Config.ksRounds : Nat := 20

/-- BLK_ROUNDS: rounds of block generation, two passes each (R5). -/
def Config.blkRounds : Nat := 20

/-- BLOCK_BYTES (R5). -/
def Config.blockBytes : Nat := 64

/-- NONCE_BYTES (R5). -/
def Config.nonceBytes : Nat := 16

/-- KLEN_W and LEN_W (R6, D6). -/
def Config.lenWidth : Nat := 32

/-- NLEN_W (R6, D6). -/
def Config.nlenWidth : Nat := 8

/-- KS_BYTE_ORDER: little, not switchable at run time (R6, R52, D13). -/
def Config.ksByteOrder : ByteOrder := .little

/-- FREE VALUE (entry 10, DESIGN CHOICE): what KS_PACK takes for key position `p` when KLEN = 0, where the spec
forbids evaluating the index `p % 0` and gives no byte (R96, R111, U1). No run reaches it. -/
opaque Config.keyByteModZero : Nat → Byte

/-! FREE VALUES (entry 3, DESIGN CHOICE): what the transient registers hold once a command has completed, where the
spec says "unspecified" and "any value" (R24, R25, R27, R34, R120, R174, U8). The first argument counts the times such
values have been drawn (`State.draws`), so that no two draws need agree. -/

/-- W[i] after a command. -/
opaque Config.freeW : Nat → Index → Word

/-- OFF after a command that does not write it. -/
opaque Config.freeOff : Nat → BitVec 32

/-- The opcode whose command OP names after a command. -/
opaque Config.freeOpcode : Nat → Byte

/-- KLEN after a command. -/
opaque Config.freeKlen : Nat → BitVec 32

/-- NLEN after a command. -/
opaque Config.freeNlen : Nat → BitVec 8

/-- LEN after a command. -/
opaque Config.freeLen : Nat → BitVec 32

/-- KEYBUF[p] after a command: the key is not retained (R34, R120). -/
opaque Config.freeKeyByte : Nat → Fin 19 → Byte

/-- NW[j] after a command: the nonce is not retained (R34, R120). -/
opaque Config.freeNonceWord : Nat → Fin 4 → Word

end Sys2Proof
end

