-- ==== Sys2Proof/WellFormed.lean ====
section
/-! DEFINITION. When an instruction can be presented to the engine: its length fields fit their widths (R77, D6). -/

namespace Sys2Proof

/-- KLEN and LEN range over 0 to 2^32-1, NLEN over 0 to 255 (R77). KLEN = 0 and NLEN ≠ 16 are encodable on purpose, so
they are well-formed. -/
def Instr.wellFormed : Instr → Bool
  | .init nlen klen => decide (nlen < 2 ^ Config.nlenWidth) && decide (klen < 2 ^ Config.lenWidth)
  | .process len => decide (len < 2 ^ Config.lenWidth)
  | .reset => true
  | .ksCheck => true
  | .ksPack => true
  | .ksNonce => true
  | .ksDiffuse => true
  | .ksCommit => true
  | .blkLoad => true
  | .blkInject => true
  | .blkCol => true
  | .blkDiag => true
  | .blkXor => true
  | .blkCtrinc => true
  | .blkRatchet => true
  | .blkNext => true
  | .rstClear => true

end Sys2Proof
end

