-- ==== Sys2Proof/Decode.lean ====
section
/-! DEFINITION. The decoder (R75, R76, R80), total on every word, and the encoder (R71 to R74, R80). -/

namespace Sys2Proof

/-- OPC, CW[63:56] (R71). -/
def cwOpc (cw : BitVec 64) : BitVec 8 := cw.extractLsb' 56 8

/-- NLEN, CW[55:48] (R71, R77). -/
def cwNlen (cw : BitVec 64) : BitVec 8 := cw.extractLsb' 48 8

/-- RSV, CW[47:32] (R71). -/
def cwRsv (cw : BitVec 64) : BitVec 16 := cw.extractLsb' 32 16

/-- ARG, CW[31:0]: KLEN or LEN (R71, R77). -/
def cwArg (cw : BitVec 64) : BitVec 32 := cw.extractLsb' 0 32

/-- The name of an illegal command word's fault (R76). -/
def illegalReason (cw : BitVec 64) : DecodeReject :=
  if cwOpc cw = 0x01#8 then .initReserved
  else if cwOpc cw = 0x02#8 then .processUpper
  else if cwOpc cw = 0x03#8 then .resetOperand
  else .opcode

/-- Decode of a command word, the tests of R75 in its order. -/
def decodeCommand (cw : BitVec 64) : Except DecodeReject Instr :=
  if cw &&& 0xFF00FFFF00000000#64 = 0x0100000000000000#64 then
    .ok (.init (cwNlen cw).toNat (cwArg cw).toNat)
  else if cw &&& 0xFFFFFFFF00000000#64 = 0x0200000000000000#64 then
    .ok (.process (cwArg cw).toNat)
  else if cw = 0x0300000000000000#64 then .ok .reset
  else .error (illegalReason cw)

/-- Decode of a phase code, the table of R80. -/
def decodePhase (code : BitVec 4) : Except DecodeReject Instr :=
  match code.toNat with
  | 0x0 => .error .idleCode
  | 0x1 => .ok .ksCheck
  | 0x2 => .ok .ksPack
  | 0x3 => .ok .ksNonce
  | 0x4 => .ok .ksDiffuse
  | 0x5 => .ok .ksCommit
  | 0x6 => .ok .blkLoad
  | 0x7 => .ok .blkInject
  | 0x8 => .ok .blkCol
  | 0x9 => .ok .blkDiag
  | 0xA => .ok .blkXor
  | 0xB => .ok .blkCtrinc
  | 0xC => .ok .blkRatchet
  | 0xD => .ok .blkNext
  | 0xE => .ok .rstClear
  | _ => .error .unusedCode

/-- Decode of an encoded instruction in either format. -/
def decode : InstrWord → Except DecodeReject Instr
  | .cmd64 cw => decodeCommand cw
  | .ph4 code => decodePhase code

/-- The instruction the decoder reads from a table row's bits, numbered as the table numbers them: a row of 4 bits
(one byte) is a phase code, every other row a command word (entry 16). -/
def decodeTableWord (nbits w : Nat) : Option Instr :=
  if nbits ≤ 8 then
    if w < 2 ^ 4 then (decode (.ph4 (BitVec.ofNat 4 w))).toOption else none
  else if w < 2 ^ 64 then (decode (.cmd64 (BitVec.ofNat 64 w))).toOption else none

/-- A command word from its fields (R71). -/
def commandWord (opc nlen : BitVec 8) (rsv : BitVec 16) (arg : BitVec 32) : BitVec 64 :=
  opc ++ nlen ++ rsv ++ arg

/-- The encoding of an instruction: R72, R73, R74 for the commands, R80 for the micro-operations. -/
def encode : Instr → InstrWord
  | .init nlen klen => .cmd64 (commandWord 0x01#8 (BitVec.ofNat 8 nlen) 0#16 (BitVec.ofNat 32 klen))
  | .process len => .cmd64 (commandWord 0x02#8 0#8 0#16 (BitVec.ofNat 32 len))
  | .reset => .cmd64 (commandWord 0x03#8 0#8 0#16 0#32)
  | .ksCheck => .ph4 0x1#4
  | .ksPack => .ph4 0x2#4
  | .ksNonce => .ph4 0x3#4
  | .ksDiffuse => .ph4 0x4#4
  | .ksCommit => .ph4 0x5#4
  | .blkLoad => .ph4 0x6#4
  | .blkInject => .ph4 0x7#4
  | .blkCol => .ph4 0x8#4
  | .blkDiag => .ph4 0x9#4
  | .blkXor => .ph4 0xA#4
  | .blkCtrinc => .ph4 0xB#4
  | .blkRatchet => .ph4 0xC#4
  | .blkNext => .ph4 0xD#4
  | .rstClear => .ph4 0xE#4

/-- The word matches the row of `spec/opcode_table.json` whose match and mask are given. -/
def matchesRow (mtch mask cw : BitVec 64) : Bool := cw &&& mask == mtch

end Sys2Proof
end

