-- ==== Sys2Proof/Machine/State.lean ====
section
/-! DEFINITION. The state of the machine as plain data (`10_state.md`), its value after reset (R36), and the reasons a
step can stop. -/

namespace Sys2Proof.Machine

/-- The sequencer's phases (R26, R80). Their 4-bit codes are `Phase.code`; 0xF is not a phase. -/
inductive Phase where
  | idle
  | ksCheck
  | ksPack
  | ksNonce
  | ksDiffuse
  | ksCommit
  | blkLoad
  | blkInject
  | blkCol
  | blkDiag
  | blkXor
  | blkCtrinc
  | blkRatchet
  | blkNext
  | rstClear
deriving DecidableEq, Repr

/-- OP, the decoded command the engine latches (R25). -/
inductive Op where
  | init
  | process
  | reset
  | illegal
deriving DecidableEq, Repr

/-- SEQ = (PH, r, i): the phase, the round index (the nonce word index j in KS_NONCE) and the word index (R26). -/
structure Seq where
  ph : Phase
  r : Fin 20
  i : Index
deriving DecidableEq, Repr

/-- The command latch and the operand buffers (R25). -/
structure Latch where
  /-- OP, the decoded command. -/
  op : Op
  /-- KLEN, the key length of an INIT. -/
  klen : BitVec 32
  /-- NLEN, the nonce length of an INIT. -/
  nlen : BitVec 8
  /-- LEN, the data length of a PROCESS. -/
  len : BitVec 32
  /-- KEYBUF[0..18], the first min(KLEN, 19) key bytes. -/
  keybuf : Vector Byte 19
  /-- NW[0..3], the nonce words. -/
  nw : Vector Word 4
deriving DecidableEq, Repr

/-- The channels between host and engine (R56, R60, R190), and the host's own side of them (R11, entry 8). -/
structure Io where
  /-- The command words the host presents, in the order it presents them: the first is at the port CMD and waits
  there until the engine takes it; none of them is inside the engine (R64, R194). -/
  cmd : List (BitVec 64)
  /-- DIN: the bytes supplied and not yet taken by the engine, oldest first (R56, R58). -/
  din : List Byte
  /-- DOUT: the bytes the engine has put there and the host has not yet taken, oldest first (R56). -/
  dout : List Byte
  /-- MODEL'S OWN (entry 8): the host takes bytes from DOUT as they appear (R200). -/
  taking : Bool
  /-- MODEL'S OWN (entry 8): the bytes the host has taken from DOUT, oldest first (R192). -/
  taken : List Byte
  /-- The reset input RST is asserted (R190). -/
  rst : Bool
deriving DecidableEq, Repr

/-- The whole state. BUSY is no field: STATUS.BUSY = (PH ≠ IDLE) (R26, R28); `State.status` gives the register. -/
structure State where
  /-- S, the 16-word state register (R20). -/
  S : Words
  /-- CTR_LO, the low half of the block counter (R22). -/
  ctrLo : Word
  /-- CTR_HI, the high half of the block counter (R22). -/
  ctrHi : Word
  /-- W, the working register (R24). -/
  W : Words
  /-- STATUS.KEYED (R30). -/
  keyed : Bool
  /-- STATUS.ERR: bit 0 KEY_EMPTY, bit 1 NONCE_LEN, bit 2 ILLEGAL_CMD (R28, R31, R170). -/
  err : BitVec 3
  /-- OP, KLEN, NLEN, LEN, KEYBUF, NW (R25). -/
  latch : Latch
  /-- SEQ, the sequencer position (R26). -/
  seq : Seq
  /-- OFF, the byte offset into the data buffer (R27). -/
  off : BitVec 32
  /-- MODEL'S OWN (entry 7): BLK_XOR has put this block's bytes on DOUT and waits for the host to take them (R200). -/
  xorSent : Bool
  /-- MODEL'S OWN (entry 3): how many times the transient registers (W, OFF, the latches) have taken free values. -/
  draws : Nat
  /-- The channels. -/
  io : Io
deriving DecidableEq, Repr

/-- No fault stops this machine: "Nothing else faults" (R175); its errors are values of STATUS.ERR (R170, R174), and a
stalled host is a wait (U13). So there is no constructor. -/
inductive Fault where
deriving DecidableEq, Repr

/-- Why an instruction is given no next state. -/
inductive Refusal where
  /-- Raised by `exec` for an instruction that has no meaning yet; none is left. Safe. -/
  | notModelled (mnemonic : String)
  /-- Raised by the three commands' meanings when BUSY = 1: "a model has no transition for acceptance while busy" (U3,
  R194). `step` never raises it, since a word then waits at the port (entry 13). Safe. -/
  | commandWhileBusy
deriving DecidableEq, Repr

/-- SEQ = (IDLE, 0, 0), the position whenever no command is in flight (R26). -/
def Seq.idle : Seq := ⟨.idle, 0, 0⟩

/-- A 16-word array of zeros. -/
def zeroWords : Words := Vector.replicate 16 0#32

/-- The latches after reset: unspecified by R36; zero, and ILLEGAL for OP (entry 2, DESIGN CHOICE). -/
def Latch.reset : Latch :=
  { op := .illegal, klen := 0#32, nlen := 0#8, len := 0#32, keybuf := Vector.replicate 19 0#8,
    nw := Vector.replicate 4 0#32 }

/-- The channels after reset: DIN and DOUT empty (R36), no word presented, the host taking (entry 8), RST released
(entry 9). -/
def Io.reset : Io := { cmd := [], din := [], dout := [], taking := true, taken := [], rst := false }

/-- The machine right after reset (R36, R190). W, OFF and the latches are unspecified there and zero here (entry 2). -/
def State.reset : State :=
  { S := zeroWords, ctrLo := 0#32, ctrHi := 0#32, W := zeroWords, keyed := false, err := 0#3,
    latch := Latch.reset, seq := Seq.idle, off := 0#32, xorSent := false, draws := 0,
    io := Io.reset }

/-! The updates of one field each; `Laws/State.lean` says what each leaves. -/

/-- `S <- v`, all 16 words. -/
def State.setS (s : State) (v : Words) : State := { s with S := v }

/-- `CTR_LO <- lo; CTR_HI <- hi`. -/
def State.setCtr (s : State) (lo hi : Word) : State := { s with ctrLo := lo, ctrHi := hi }

/-- `W <- v`, all 16 words. -/
def State.setW (s : State) (v : Words) : State := { s with W := v }

/-- `KEYED <- b`. -/
def State.setKeyed (s : State) (b : Bool) : State := { s with keyed := b }

/-- `ERR <- e`. -/
def State.setErr (s : State) (e : BitVec 3) : State := { s with err := e }

/-- The latches take new values. -/
def State.setLatch (s : State) (l : Latch) : State := { s with latch := l }

/-- `SEQ <- q` (R9). -/
def State.setSeq (s : State) (q : Seq) : State := { s with seq := q }

/-- `OFF <- o`. -/
def State.setOff (s : State) (o : BitVec 32) : State := { s with off := o }

/-- The model's own flag of BLK_XOR (entry 7). -/
def State.setXorSent (s : State) (b : Bool) : State := { s with xorSent := b }

/-- The model's own count of free values (entry 3). -/
def State.setDraws (s : State) (n : Nat) : State := { s with draws := n }

/-- The channels take new contents. -/
def State.setIo (s : State) (io : Io) : State := { s with io := io }

end Sys2Proof.Machine
end

