-- ==== Sys2Proof/Machine/Flags.lean ====
section
/-! DEFINITION. STATUS and the values its fields take: BUSY, KEYED, ERR (R28 to R31, R170). -/

namespace Sys2Proof.Machine

/-- STATUS.BUSY = (PH ≠ IDLE) (R26, R28, R29). -/
def State.busy (s : State) : Bool := s.seq.ph != .idle

/-- ERR value of KEY_EMPTY alone (R170). -/
def errKeyEmpty : BitVec 3 := 0b001#3

/-- ERR value of NONCE_LEN alone (R170). -/
def errNonceLen : BitVec 3 := 0b010#3

/-- ERR value of ILLEGAL_CMD (R170). -/
def errIllegalCmd : BitVec 3 := 0b100#3

/-- The preconditions of INIT on its two lengths; both bits when both fail (R110, R111, R178). -/
def initErrors (klen nlen : Nat) : BitVec 3 :=
  (if klen = 0 then errKeyEmpty else 0#3) ||| (if nlen ≠ Config.nonceBytes then errNonceLen else 0#3)

/-- The 8-bit register the host reads: bit 7 and bits 3:2 reserved and 0, ERR in 6:4, KEYED in 1, BUSY in 0 (R28).
Reading it has no side effect. -/
def State.status (s : State) : BitVec 8 :=
  0#1 ++ s.err ++ 0#2 ++ BitVec.ofBool s.keyed ++ BitVec.ofBool s.busy

end Sys2Proof.Machine
end

