-- ==== Sys2Proof/Machine/Operands.lean ====
section
/-! DEFINITION. The operand forms: how key, nonce and keystream bytes meet words (R50 to R54, R112), and the length
that bounds a block (R138). -/

namespace Sys2Proof.Machine

/-- Four bytes packed big-endian, the first the most significant (R50, R51). -/
def be32 (b0 b1 b2 b3 : Byte) : Word := b0 ++ b1 ++ b2 ++ b3

/-- The nonce as four big-endian words: n_j from bytes 4j to 4j+3 (R51). The default of `getD` is not reached for the
16 bytes a nonce has. -/
def nonceWords (nonce : List Byte) : Vector Word 4 :=
  Vector.ofFn fun j =>
    be32 (nonce.getD (4 * j.val) 0#8) (nonce.getD (4 * j.val + 1) 0#8) (nonce.getD (4 * j.val + 2) 0#8)
      (nonce.getD (4 * j.val + 3) 0#8)

/-- KEYBUF after the key bytes have been taken: positions 0 to min(KLEN, 19) - 1 hold them, later key bytes are
discarded (R25, R111); a position no key byte reaches keeps its value (entry 22). -/
def storeKey (keybuf : Vector Byte 19) (key : List Byte) : Vector Byte 19 :=
  Vector.ofFn fun p => key.getD p.val keybuf[p]

/-- Position (i + k) mod KLEN of KEYBUF; it is below 19 because i + k is (R112, R116). -/
def keyPosition (i : Index) (k : Fin 4) (klen : Nat) : Fin 19 :=
  ⟨(i.val + k.val) % klen, Nat.lt_of_le_of_lt (Nat.mod_le _ _) (by omega)⟩

/-- The key byte KS_PACK reads for word i at place k: KEY[(i+k) % KLEN], out of KEYBUF (R112). With KLEN = 0, which
KS_CHECK excludes, the index is not evaluated and the byte is free (entry 10). -/
def keyByte (l : Latch) (i : Index) (k : Fin 4) : Byte :=
  if l.klen = 0#32 then Config.keyByteModZero (i.val + k.val)
  else l.keybuf[keyPosition i k l.klen.toNat]

/-- `pack(i)`: the key window of word i, big-endian; it moves one byte a word (R50, R54, R112). -/
def packWord (l : Latch) (i : Index) : Word :=
  be32 (keyByte l i 0) (keyByte l i 1) (keyByte l i 2) (keyByte l i 3)

/-- NW[j] for the nonce index held in SEQ.r, 0 to 3 in KS_NONCE (R113); outside that range its low two bits select the
word (entry 11). -/
def nonceWord (l : Latch) (r : Fin 20) : Word := l.nw[Fin.ofNat 4 r.val]

/-- `KSB[j]`: byte j of the serialised keystream block, word j / 4; in little-endian order byte k of a word is
W[i][8k+7:8k] (R52, R137). -/
def keystreamByte (w : Words) (j : Fin 64) : Byte :=
  let word := w[(⟨j.val / 4, by omega⟩ : Index)]
  match Config.ksByteOrder with
  | .little => word.extractLsb' (8 * (j.val % 4)) 8
  | .big => word.extractLsb' (8 * (3 - j.val % 4)) 8

/-- KSB[0..63], word 0 first (R52). -/
def keystreamBytes (w : Words) : List Byte := (List.finRange 64).map (keystreamByte w)

/-- n = min(LEN - OFF, 64), the bytes of the current block (R138). -/
def State.blockLen (s : State) : Nat := min (s.latch.len.toNat - s.off.toNat) Config.blockBytes

end Sys2Proof.Machine
end

