-- ==== Sys2Proof/Machine/Ops.lean ====
section
/-! DEFINITION. The shared operations: the datapath functions (`40_primitives.md`), the counter, the sequencer's loops,
the streams, and the beginning and the end of a command, errors included. -/

namespace Sys2Proof.Machine

/-! ## The datapath (state_xform_pipeline) -/

/-- `rotl(v, s)`, circular left rotation; defined here for every s, used for 0 ≤ s < 32 (R90, entry 14). -/
def rotl (v : Word) (s : Nat) : Word := v.rotateLeft s

/-- `rotr(v, s)`, circular right rotation; defined here for every s, used for 0 ≤ s < 32 (R91, entry 14). -/
def rotr (v : Word) (s : Nat) : Word := v.rotateRight s

/-- `T(x)`, the five sequential assignments of R92. -/
def T (x : Word) : Word :=
  let x1 := x ^^^ rotl x 5 ^^^ rotr x 7
  let x2 := x1 * Config.k
  let x3 := x2 ^^^ rotl x2 13
  let x4 := x3 + rotr x3 11
  x4 ^^^ rotr x4 17

/-- `Mix(a, b, c)`, the six sequential assignments of R93. -/
def Mix (a b c : Word) : Word :=
  let a1 := a ^^^ rotl b 7 ^^^ rotr c 13
  let b1 := b ^^^ rotl c 9 ^^^ rotr a1 11
  let c1 := c ^^^ rotl a1 15 ^^^ rotr b1 5
  let a2 := a1 * Config.k
  let b2 := b1 + rotl c1 13
  let c2 := c1 ^^^ rotr a2 11
  a2 ^^^ b2 ^^^ c2

/-- `UPD(A, t, e, (o1, o2, o3))`: the two assignments of R94, one after the other on the same array. Index sums are
modulo 16. -/
def upd (a : Words) (t : Index) (e : Word) (o : Offsets) : Words :=
  let a1 := a.set t (T (a[t] ^^^ e))
  a1.set t (a1[t] ^^^ Mix a1[t + o.o1] a1[t + o.o2] a1[t + o.o3])

/-- A word index as the word it is added as in `n_j + i` and `CTR_LO + i` (R113, R133). -/
def indexWord (i : Index) : Word := BitVec.ofNat 32 i.val

/-- KS_NONCE on word i with nonce word n: `W[i] <- W[i] ^ T((n + i) mod 2^32)` (R113). -/
def foldNonceWord (w : Words) (n : Word) (i : Index) : Words :=
  w.set i (w[i] ^^^ T (n + indexWord i))

/-- BLK_INJECT on word i: the two counter halves as separate words, one after the other (R133). -/
def injectWord (w : Words) (lo hi : Word) (i : Index) : Words :=
  let w1 := w.set i (w[i] ^^^ T (lo + indexWord i))
  w1.set i (w1[i] ^^^ T (hi + indexWord i))

/-- CTR_LO after one block (R139). -/
def ctrNextLo (lo : Word) : Word := lo + 1#32

/-- CTR_HI after one block: it advances when the low half wrapped to 0 (R139). -/
def ctrNextHi (lo hi : Word) : Word := if ctrNextLo lo = 0#32 then hi + 1#32 else hi

/-! ## The sequencer (R26, R80) -/

/-- The code of a phase, the table of R80. -/
def Phase.code : Phase → BitVec 4
  | .idle => 0x0#4
  | .ksCheck => 0x1#4
  | .ksPack => 0x2#4
  | .ksNonce => 0x3#4
  | .ksDiffuse => 0x4#4
  | .ksCommit => 0x5#4
  | .blkLoad => 0x6#4
  | .blkInject => 0x7#4
  | .blkCol => 0x8#4
  | .blkDiag => 0x9#4
  | .blkXor => 0xA#4
  | .blkCtrinc => 0xB#4
  | .blkRatchet => 0xC#4
  | .blkNext => 0xD#4
  | .rstClear => 0xE#4

/-- The phase of a code; none for 0xF, which is not a phase (R80). -/
def phaseOfCode (code : Nat) : Option Phase :=
  match code with
  | 0x0 => some .idle
  | 0x1 => some .ksCheck
  | 0x2 => some .ksPack
  | 0x3 => some .ksNonce
  | 0x4 => some .ksDiffuse
  | 0x5 => some .ksCommit
  | 0x6 => some .blkLoad
  | 0x7 => some .blkInject
  | 0x8 => some .blkCol
  | 0x9 => some .blkDiag
  | 0xA => some .blkXor
  | 0xB => some .blkCtrinc
  | 0xC => some .blkRatchet
  | 0xD => some .blkNext
  | 0xE => some .rstClear
  | _ => none

/-- The micro-operation the sequencer is at, read from the code of its phase; none at IDLE (R80). -/
def microOp (ph : Phase) : Option Instr := (decode (.ph4 ph.code)).toOption

/-- The next position in a phase that runs for i = 0..15, or `done` after i = 15 (R117, R149). -/
def nextWord (q : Seq) (ph : Phase) (done : Seq) : Seq :=
  if q.i.val < 15 then ⟨ph, q.r, q.i + 1⟩ else done

/-- The next position in a phase that runs for r = 0..last and, inside it, i = 0..15; after i = 15 the next round
begins at phase `again`, or `done` follows round `last` (R117, R149). -/
def nextRound (q : Seq) (ph again : Phase) (last : Nat) (done : Seq) : Seq :=
  if q.i.val < 15 then ⟨ph, q.r, q.i + 1⟩
  else if q.r.val < last then ⟨again, q.r + 1, 0⟩
  else done

/-! ## The beginning and the end of a command -/

/-- Acceptance of a command: only while BUSY = 0 (R70, R194); `start` latches the fields and sets the first position. -/
def acceptCommand (s : State) (start : State → State) : Host.Outcome State Fault Refusal :=
  if s.busy then .refused .commandWhileBusy else .next (start s)

/-- OP as named by an opcode byte (R25, R72 to R76). -/
def opOfOpcode (opc : Byte) : Op :=
  if opc = 0x01#8 then .init else if opc = 0x02#8 then .process else if opc = 0x03#8 then .reset else .illegal

/-- W once its content is unspecified (R24, entry 3). Irreducible: only its being a function of `k` matters. -/
@[irreducible] def freeWords (k : Nat) : Words := Vector.ofFn (Config.freeW k)

/-- The latches, KEYBUF and NW once their contents are unspecified (R25, entry 3). Irreducible as `freeWords` is. -/
@[irreducible] def freeLatch (k : Nat) : Latch :=
  { op := opOfOpcode (Config.freeOpcode k), klen := Config.freeKlen k, nlen := Config.freeNlen k,
    len := Config.freeLen k, keybuf := Vector.ofFn (Config.freeKeyByte k), nw := Vector.ofFn (Config.freeNonceWord k) }

/-- W, OFF and the latches die with their command, key and nonce among them: from here to the next command they hold
any value (R24, R25, R27, R34, R120, R174, U8, entry 3). -/
def discardTransients (s : State) : State :=
  (((s.setW (freeWords s.draws)).setLatch (freeLatch s.draws)).setOff (Config.freeOff s.draws)).setDraws (s.draws + 1)

/-- The end of a command: ERR <- e, SEQ <- (IDLE, 0, 0), so BUSY falls (R29, R31). -/
def endCommand (e : BitVec 3) (s : State) : State := (s.setErr e).setSeq Seq.idle

/-- Completion of an INIT or a PROCESS that succeeds (R115, R141, R149): ERR <- 0, and its transients are discarded. -/
def complete (s : State) : State := discardTransients (endCommand 0#3 s)

/-- `raise Err(e)`: ERR <- e, SEQ <- (IDLE, 0, 0); nothing is saved, "W, the latches and OFF are dead", nothing else
changes (R174). There is no return from an error: the next completion overwrites ERR (R179). -/
def raiseErr (e : BitVec 3) (s : State) : State := discardTransients (endCommand e s)

/-- A command word that decodes to no command: OP latches ILLEGAL (R25) for as long as the command lasts, which
completes at once with ILLEGAL_CMD; no byte moves (R173). -/
def illegalCommand (s : State) : State := raiseErr errIllegalCmd (s.setLatch { s.latch with op := .illegal })

/-! ## The streams (R56 to R58, R200) -/

/-- The operand bytes an INIT takes from DIN: KLEN + NLEN (R57). -/
def State.operandLen (s : State) : Nat := s.latch.klen.toNat + s.latch.nlen.toNat

/-- The engine takes the operand bytes of an INIT from DIN: the key into KEYBUF and, when NLEN = 16, the nonce into
NW; bytes it does not keep are discarded (R57, R111). -/
def takeOperands (s : State) : State :=
  let key := s.io.din.take s.latch.klen.toNat
  let nonce := (s.io.din.drop s.latch.klen.toNat).take s.latch.nlen.toNat
  let nw := if s.latch.nlen.toNat = Config.nonceBytes then nonceWords nonce else s.latch.nw
  (s.setLatch { s.latch with keybuf := storeKey s.latch.keybuf key, nw := nw }).setIo
    { s.io with din := s.io.din.drop s.operandLen }

/-- The output bytes of a block: the first n input bytes exclusive-ored with KSB[0..n-1] (R138). -/
def xorBytes (data : List Byte) (w : Words) : List Byte := List.zipWith (· ^^^ ·) data (keystreamBytes w)

/-- The engine takes n bytes from DIN and puts their exclusive-or with the keystream on DOUT (R56, R138). -/
def sendBlock (n : Nat) (s : State) : State :=
  s.setIo { s.io with din := s.io.din.drop n, dout := s.io.dout ++ xorBytes (s.io.din.take n) s.W }

/-- The host takes the first k bytes pending on DOUT (R56, R200). -/
def hostTakes (k : Nat) (s : State) : State :=
  s.setIo { s.io with dout := s.io.dout.drop k, taken := s.io.taken ++ s.io.dout.take k }

/-- A host that is taking takes everything pending on DOUT (entry 8). -/
def hostTakesIfTaking (s : State) : State := if s.io.taking then hostTakes s.io.dout.length s else s

/-- BLK_XOR ends when the host has taken this block's bytes from DOUT; until then the engine waits in it (R200,
entry 7). -/
def leaveXor (s : State) : State :=
  let s := hostTakesIfTaking s
  if s.io.dout = [] then (s.setXorSent false).setSeq ⟨.blkCtrinc, 0, 0⟩ else s.setXorSent true

/-- The word at the port is taken from it (R70). -/
def takeCommand (rest : List (BitVec 64)) (s : State) : State := s.setIo { s.io with cmd := rest }

/-! ## The reset input -/

/-- The effect of RST: every piece of engine state takes its value after hardware reset, DIN and DOUT are emptied
(R190, R192); what the host presents, has taken and is ready to take is the host's and stays, and so does the input
itself (entry 9), and the model's count of free values (entry 3). -/
def hardwareReset (s : State) : State :=
  (State.reset.setDraws s.draws).setIo { s.io with din := [], dout := [] }

end Sys2Proof.Machine
end

