-- ==== Sys2Proof/Machine/Block.lean ====
section
/-! DEFINITION. The micro-operations of PROCESS: keystream generation, xor_datapath, block_counter,
ratchet_state_machine and the block loop (R132 to R141, R149). -/

namespace Sys2Proof.Machine

/-- BLK_LOAD (R132): `W <- S`. -/
def execBlkLoad (s : State) : Host.Outcome State Fault Refusal :=
  .next ((s.setW s.S).setSeq ⟨.blkInject, 0, 0⟩)

/-- BLK_INJECT (R133): `W[i] <- W[i] ^ T(CTR_LO + i) ^ T(CTR_HI + i)`. -/
def execBlkInject (s : State) : Host.Outcome State Fault Refusal :=
  .next ((s.setW (injectWord s.W s.ctrLo s.ctrHi s.seq.i)).setSeq
    (nextWord s.seq .blkInject ⟨.blkCol, 0, 0⟩))

/-- BLK_COL (R134): `UPD(W, i, 0, (1,7,13))`; the diagonal pass of the same round follows. -/
def execBlkCol (s : State) : Host.Outcome State Fault Refusal :=
  .next ((s.setW (upd s.W s.seq.i 0#32 Config.colOffs)).setSeq
    (nextWord s.seq .blkCol ⟨.blkDiag, s.seq.r, 0⟩))

/-- BLK_DIAG (R135): `UPD(W, (5 i) % 16, 0, (3,9,14))`; the column pass of the next round follows. -/
def execBlkDiag (s : State) : Host.Outcome State Fault Refusal :=
  .next ((s.setW (upd s.W (Config.diaStride * s.seq.i) 0#32 Config.diaOffs)).setSeq
    (nextRound s.seq .blkDiag .blkCol (Config.blkRounds - 1) ⟨.blkXor, 0, 0⟩))

/-- BLK_XOR (R138): waits for the block's n bytes on DIN, puts their exclusive-or with KSB on DOUT, and ends when the
host has taken them (R200, entry 7). -/
def execBlkXor (s : State) : Host.Outcome State Fault Refusal :=
  if s.xorSent then .next (leaveXor s)
  else if s.io.din.length < s.blockLen then .next s
  else .next (leaveXor (sendBlock s.blockLen s))

/-- BLK_CTRINC (R139): the counter advances by one, whatever n was. -/
def execBlkCtrinc (s : State) : Host.Outcome State Fault Refusal :=
  .next ((s.setCtr (ctrNextLo s.ctrLo) (ctrNextHi s.ctrLo s.ctrHi)).setSeq ⟨.blkRatchet, 0, 0⟩)

/-- BLK_RATCHET (R140): `UPD(S, i, W[i], (1,7,13))`. -/
def execBlkRatchet (s : State) : Host.Outcome State Fault Refusal :=
  .next ((s.setS (upd s.S s.seq.i s.W[s.seq.i] Config.colOffs)).setSeq
    (nextWord s.seq .blkRatchet ⟨.blkNext, 0, 0⟩))

/-- BLK_NEXT (R141): `OFF <- OFF + n`; the next block, or completion with ERR <- 0 when the input is consumed
(OFF then holds what this rule writes, W and the latches are discarded, entry 3). -/
def execBlkNext (s : State) : Host.Outcome State Fault Refusal :=
  let n := s.blockLen
  let off := s.off + BitVec.ofNat 32 n
  if s.off.toNat + n < s.latch.len.toNat then .next ((s.setOff off).setSeq ⟨.blkLoad, 0, 0⟩)
  else .next ((complete s).setOff off)

end Sys2Proof.Machine
end

