-- ==== Sys2Proof/Machine/Command.lean ====
section
/-! DEFINITION. The three commands: what the engine does when it accepts one (R70, R25, R117, R149, R161). The rest of
a command's effect is the micro-operations it starts (entry 1). -/

namespace Sys2Proof.Machine

/-- INIT accepted: OP, KLEN, NLEN latched, SEQ <- (KS_CHECK, 0, 0), so BUSY rises (R25, R117). -/
def execInit (nlen klen : Nat) (s : State) : Host.Outcome State Fault Refusal :=
  acceptCommand s fun s =>
    (s.setLatch { s.latch with op := .init, klen := BitVec.ofNat 32 klen, nlen := BitVec.ofNat 8 nlen }).setSeq
      ⟨.ksCheck, 0, 0⟩

/-- PROCESS accepted: OP, LEN latched, OFF <- 0 (R25, R27). With LEN > 0 the first block begins at BLK_LOAD; with
LEN = 0 the command completes at once with ERR <- 0 (R142, R149, entry 18). -/
def execProcess (len : Nat) (s : State) : Host.Outcome State Fault Refusal :=
  acceptCommand s fun s =>
    let s := s.setLatch { s.latch with op := .process, len := BitVec.ofNat 32 len }
    if s.latch.len = 0#32 then (complete s).setOff 0#32 else (s.setOff 0#32).setSeq ⟨.blkLoad, 0, 0⟩

/-- RESET accepted: OP latched, SEQ <- (RST_CLEAR, 0, 0), so BUSY rises (R25, R161, entry 4). -/
def execReset (s : State) : Host.Outcome State Fault Refusal :=
  acceptCommand s fun s => (s.setLatch { s.latch with op := .reset }).setSeq ⟨.rstClear, 0, 0⟩

end Sys2Proof.Machine
end

