-- ==== Sys2Proof/Machine/KeySchedule.lean ====
section
/-! DEFINITION. The micro-operations of the key_schedule FSM (R111 to R117). -/

namespace Sys2Proof.Machine

/-- KS_CHECK (R111): waits for the KLEN + NLEN operand bytes (R200), takes them, and tests the lengths; a violation
ends the command with ERR, the operands discarded and nothing else of the architectural state changed (R57, R174). -/
def execKsCheck (s : State) : Host.Outcome State Fault Refusal :=
  if s.io.din.length < s.operandLen then .next s
  else
    let e := initErrors s.latch.klen.toNat s.latch.nlen.toNat
    let s := takeOperands s
    if e ≠ 0#3 then .next (raiseErr e s) else .next (s.setSeq ⟨.ksPack, 0, 0⟩)

/-- KS_PACK (R112): `W[i] <- pack(i)`. -/
def execKsPack (s : State) : Host.Outcome State Fault Refusal :=
  .next ((s.setW (s.W.set s.seq.i (packWord s.latch s.seq.i))).setSeq
    (nextWord s.seq .ksPack ⟨.ksNonce, 0, 0⟩))

/-- KS_NONCE (R113): `W[i] <- W[i] ^ T(n_j + i)`, j in SEQ.r. -/
def execKsNonce (s : State) : Host.Outcome State Fault Refusal :=
  .next ((s.setW (foldNonceWord s.W (nonceWord s.latch s.seq.r) s.seq.i)).setSeq
    (nextRound s.seq .ksNonce .ksNonce 3 ⟨.ksDiffuse, 0, 0⟩))

/-- KS_DIFFUSE (R114): `UPD(W, i, 0, (1,7,13))`. -/
def execKsDiffuse (s : State) : Host.Outcome State Fault Refusal :=
  .next ((s.setW (upd s.W s.seq.i 0#32 Config.colOffs)).setSeq
    (nextRound s.seq .ksDiffuse .ksDiffuse (Config.ksRounds - 1) ⟨.ksCommit, 0, 0⟩))

/-- KS_COMMIT (R115): `S <- W; CTR <- (0,0); KEYED <- 1; ERR <- 0; SEQ <- (IDLE,0,0)`, one step. "The key and
nonce are not retained after KS_COMMIT" (R120, R34). -/
def execKsCommit (s : State) : Host.Outcome State Fault Refusal :=
  .next (complete (((s.setS s.W).setCtr 0#32 0#32).setKeyed true))

end Sys2Proof.Machine
end

