-- ==== Sys2Proof/Machine/ResetCommand.lean ====
section
/-! DEFINITION. The micro-operation of RESET (R161). -/

namespace Sys2Proof.Machine

/-- RST_CLEAR (R160, R161): `S <- 0; CTR <- (0,0); KEYED <- 0; ERR <- 0; SEQ <- (IDLE,0,0)`, one step. "RESET does not
change W, the latches or OFF, which are dead anyway" (R160). -/
def execRstClear (s : State) : Host.Outcome State Fault Refusal :=
  .next (endCommand 0#3 (((s.setS zeroWords).setCtr 0#32 0#32).setKeyed false))

end Sys2Proof.Machine
end

