-- ==== Sys2Proof/Machine/Dispatch.lean ====
section
/-! DEFINITION. One arm per instruction. -/

namespace Sys2Proof.Machine

def exec (i : Instr) (s : State) : Host.Outcome State Fault Refusal :=
  match i with
  | .init nlen klen => Sys2Proof.Machine.execInit nlen klen s
  | .process len => Sys2Proof.Machine.execProcess len s
  | .reset => Sys2Proof.Machine.execReset s
  | .ksCheck => Sys2Proof.Machine.execKsCheck s
  | .ksPack => Sys2Proof.Machine.execKsPack s
  | .ksNonce => Sys2Proof.Machine.execKsNonce s
  | .ksDiffuse => Sys2Proof.Machine.execKsDiffuse s
  | .ksCommit => Sys2Proof.Machine.execKsCommit s
  | .blkLoad => Sys2Proof.Machine.execBlkLoad s
  | .blkInject => Sys2Proof.Machine.execBlkInject s
  | .blkCol => Sys2Proof.Machine.execBlkCol s
  | .blkDiag => Sys2Proof.Machine.execBlkDiag s
  | .blkXor => Sys2Proof.Machine.execBlkXor s
  | .blkCtrinc => Sys2Proof.Machine.execBlkCtrinc s
  | .blkRatchet => Sys2Proof.Machine.execBlkRatchet s
  | .blkNext => Sys2Proof.Machine.execBlkNext s
  | .rstClear => Sys2Proof.Machine.execRstClear s

end Sys2Proof.Machine
end

