-- ==== Sys2Proof/Machine/Step.lean ====
section
/-! DEFINITION. One step of the engine, and how a word comes to be the next one it runs. -/

namespace Sys2Proof.Machine

/-- One step (R26, R61, R70, R190). While RST is asserted the engine is in its reset state. Otherwise a busy engine
runs the micro-operation its phase names; an idle one takes the word at the port, if there is one, and accepts the
command it decodes to or reports it illegal; with no word it waits. -/
def step (s : State) : Host.Outcome State Fault Refusal :=
  if s.io.rst then .next (hardwareReset s)
  else
    match microOp s.seq.ph with
    | some i => exec i s
    | none =>
      match s.io.cmd with
      | [] => .next s
      | cw :: rest =>
        match decode (.cmd64 cw) with
        | .ok i => exec i (takeCommand rest s)
        | .error _ => .next (illegalCommand (takeCommand rest s))

/-- `s` with a table row's bits where the next step fetches (entry 15): a phase code as the phase of SEQ, a command
word at the port of an idle engine; RST released, since nothing is fetched while it is asserted. -/
def State.withFetchWord (s : State) (nbits w : Nat) : State :=
  if nbits ≤ 8 then
    match phaseOfCode w with
    | some ph => (s.setSeq { s.seq with ph := ph }).setIo { s.io with rst := false }
    | none => s
  else (s.setSeq Seq.idle).setIo { s.io with cmd := BitVec.ofNat 64 w :: s.io.cmd, rst := false }

end Sys2Proof.Machine
end

