-- ==== Sys2Proof/Machine/HostPort.lean ====
section
/-! DEFINITION. The host's moves (R11) and what it observes (R33). They are the engine's surroundings, between its
steps; `step` never makes one, but for a host that is taking bytes from DOUT as they appear (entry 8). -/

namespace Sys2Proof.Machine

/-- What the host can do to the engine; there is nothing else (R11, R28, R60). A read of STATUS is `State.status`. -/
inductive HostAction where
  /-- Present a command word; it waits at the port behind the words presented before it (R70, R194). -/
  | present (cw : BitVec 64)
  /-- Supply bytes on DIN (R56, R57); while RST is asserted too (entry 23). -/
  | supply (bytes : List Byte)
  /-- Take up to k pending bytes from DOUT (R56, R200). -/
  | take (k : Nat)
  /-- Begin or stop taking bytes as they appear (R200). -/
  | setTaking (on : Bool)
  /-- Assert or release RST (R190). -/
  | setRst (on : Bool)
deriving DecidableEq, Repr

/-- The state after a move of the host. Asserting RST has its effect at once, whatever the sequencer was doing (R190,
R192). DESIGN CHOICE (entry 23): the spec says nothing of moves made while RST stays asserted. Bytes supplied then are
queued; a step under RST drops them, and they stay pending if RST is released with no step between. -/
def hostAct (a : HostAction) (s : State) : State :=
  match a with
  | .present cw => s.setIo { s.io with cmd := s.io.cmd ++ [cw] }
  | .supply bytes => s.setIo { s.io with din := s.io.din ++ bytes }
  | .take k => hostTakes k s
  | .setTaking on => s.setIo { s.io with taking := on }
  | .setRst true => hardwareReset (s.setIo { s.io with rst := true })
  | .setRst false => s.setIo { s.io with rst := false }

/-- Every byte that has appeared on DOUT, oldest first: those the host has taken, then those pending (R33). -/
def State.output (s : State) : List Byte := s.io.taken ++ s.io.dout

/-- What the host observes: STATUS and the bytes on DOUT, nothing else (R33). -/
def State.observed (s : State) : BitVec 8 × List Byte := (s.status, s.output)

end Sys2Proof.Machine
end

