-- ==== Sys2Proof/Machine/CommandLevel.lean ====
section
/-! DEFINITION. The normative command level (R12): each command as ONE transition of the persistent state (R35) and its
operand bytes. It is written from R110, R130, R142, R160, R173, R174 and their quotations, not from the micro-operations;
that the sequencer performs the same is stated as obligations (R118, R146, R161). -/

namespace Sys2Proof.Machine

/-- The persistent architectural state (S, CTR_LO, CTR_HI, KEYED, ERR) (R35). -/
structure Arch where
  S : Words
  ctrLo : Word
  ctrHi : Word
  keyed : Bool
  err : BitVec 3
deriving DecidableEq, Repr

/-- The persistent part of a state. -/
def State.arch (s : State) : Arch := ⟨s.S, s.ctrLo, s.ctrHi, s.keyed, s.err⟩

/-- A column pass: indices 0 to 15 in order, offsets (1,7,13), each update seeing the ones before it (R95). -/
def columnPass (a : Words) : Words := (List.finRange 16).foldl (fun a i => upd a i 0#32 Config.colOffs) a

/-- A diagonal pass: index (5 i) mod 16 for i = 0 to 15, offsets (3,9,14) (R95, R135). -/
def diagonalPass (a : Words) : Words :=
  (List.finRange 16).foldl (fun a i => upd a (Config.diaStride * i) 0#32 Config.diaOffs) a

/-- The ratchet: a column-order pass over S with the keystream words as second operand (R140). -/
def ratchetPass (a ks : Words) : Words :=
  (List.finRange 16).foldl (fun a i => upd a i ks[i] Config.colOffs) a

/-- KEY[p mod KLEN] of a key of at least one byte (R50). -/
def keyAt (key : List Byte) (p : Nat) : Byte := key.getD (p % key.length) 0#8

/-- Step 1 of the key schedule: the working array packed from the key (R110, R112). -/
def packKey (key : List Byte) : Words :=
  Vector.ofFn fun i : Index =>
    be32 (keyAt key i.val) (keyAt key (i.val + 1)) (keyAt key (i.val + 2)) (keyAt key (i.val + 3))

/-- Step 2: the four nonce words folded in, j outer and i inner (R110, R113). -/
def foldNonce (w : Words) (n : Vector Word 4) : Words :=
  (List.finRange 4).foldl (fun w j => (List.finRange 16).foldl (fun w i => foldNonceWord w n[j] i) w) w

/-- The key schedule: steps 1 to 3 (R110). -/
def keySchedule (key nonce : List Byte) : Words :=
  columnPass^[Config.ksRounds] (foldNonce (packKey key) (nonceWords nonce))

/-- INIT as one transition (R110): the errors, or the key schedule's result with the counter at zero. -/
def initCommand (key nonce : List Byte) (a : Arch) : Arch :=
  let e := initErrors key.length nonce.length
  if e ≠ 0#3 then { a with err := e }
  else { S := keySchedule key nonce, ctrLo := 0#32, ctrHi := 0#32, keyed := true, err := 0#3 }

/-- Step 2 of a block: the counter injected into every word (R130, R133). -/
def inject (w : Words) (lo hi : Word) : Words :=
  (List.finRange 16).foldl (fun w i => injectWord w lo hi i) w

/-- The keystream block of a state: steps 1 to 3 (R130, R136). It reads S and CTR only (R131). -/
def keystreamBlock (a : Arch) : Words :=
  (fun w => diagonalPass (columnPass w))^[Config.blkRounds] (inject a.S a.ctrLo a.ctrHi)

/-- The state after a block: the counter advanced, S ratcheted with the whole keystream block (R130, R131, R139, R140).
KEYED and ERR are not touched. -/
def afterBlock (a : Arch) : Arch :=
  { a with
    S := ratchetPass a.S (keystreamBlock a)
    ctrLo := ctrNextLo a.ctrLo
    ctrHi := ctrNextHi a.ctrLo a.ctrHi }

/-- B = ceil(LEN / 64) (R130). -/
def blockCount (len : Nat) : Nat := (len + 63) / 64

/-- `b` blocks of PROCESS over what is left of the buffer: the state after them and the output bytes (R130, R131). -/
def processBlocks : Nat → List Byte → Arch → Arch × List Byte
  | 0, _, a => (a, [])
  | b + 1, buf, a =>
    let out := xorBytes (buf.take Config.blockBytes) (keystreamBlock a)
    let (a', rest) := processBlocks b (buf.drop Config.blockBytes) (afterBlock a)
    (a', out ++ rest)

/-- PROCESS as one transition (R130, R142): the state after it and the LEN output bytes. -/
def processCommand (buf : List Byte) (a : Arch) : Arch × List Byte :=
  let (a', out) := processBlocks (blockCount buf.length) buf a
  ({ a' with err := 0#3 }, out)

/-- RESET as one transition (R160). -/
def resetCommand (_ : Arch) : Arch := ⟨zeroWords, 0#32, 0#32, false, 0#3⟩

/-- An illegal command word as one transition (R173). -/
def illegalCommandEffect (a : Arch) : Arch := { a with err := errIllegalCmd }

/-- PROCESS commands one after the other on one engine, one per buffer: the state after them and each one's output
(R144, R145). -/
def processMany : List (List Byte) → Arch → Arch × List (List Byte)
  | [], a => (a, [])
  | buf :: bufs, a =>
    let (a1, out) := processCommand buf a
    let (a2, outs) := processMany bufs a1
    (a2, out :: outs)

end Sys2Proof.Machine
end

