-- ==== Sys2Proof/Safety.lean ====
section
/-! DEFINITION. What counts as a safe state and a safe run, in the terms the statements use. -/

namespace Sys2Proof.Machine

/-- `k` steps of the engine with no move of the host between them: `Host.Core.run` on this machine
(`runs_eq_core_run`). -/
def runs : Nat → State → Host.Outcome State Fault Refusal
  | 0, s => .next s
  | k + 1, s =>
    match step s with
    | .next t => runs k t
    | .fault r => .fault r
    | .refused r => .refused r

/-- A safe run: no step of it stops, however long it is. -/
def SafeRun (s : State) : Prop := ∀ k, ∃ t, runs k s = .next t

/-- The phases of INIT (R117). -/
def Phase.ofInit : Phase → Bool
  | .ksCheck => true
  | .ksPack => true
  | .ksNonce => true
  | .ksDiffuse => true
  | .ksCommit => true
  | _ => false

/-- The phases of INIT that KS_CHECK lets through (R117). -/
def Phase.afterCheck : Phase → Bool
  | .ksPack => true
  | .ksNonce => true
  | .ksDiffuse => true
  | .ksCommit => true
  | _ => false

/-- The phases of PROCESS (R149). -/
def Phase.ofProcess : Phase → Bool
  | .blkLoad => true
  | .blkInject => true
  | .blkCol => true
  | .blkDiag => true
  | .blkXor => true
  | .blkCtrinc => true
  | .blkRatchet => true
  | .blkNext => true
  | _ => false

/-- The phases that run once, at (PH, 0, 0), and IDLE (R26, R80). -/
def Phase.once : Phase → Bool
  | .idle => true
  | .ksCheck => true
  | .ksCommit => true
  | .blkLoad => true
  | .blkXor => true
  | .blkCtrinc => true
  | .blkNext => true
  | .rstClear => true
  | _ => false

/-- The phases that run for i = 0..15 in no round (R80). -/
def Phase.wordsOnly : Phase → Bool
  | .ksPack => true
  | .blkInject => true
  | .blkRatchet => true
  | _ => false

/-- The positions SEQ takes (R26, R117, R149, R161): "r and i never leave their ranges". -/
structure Seq.Legal (q : Seq) : Prop where
  once : q.ph.once = true → q.r = 0 ∧ q.i = 0
  wordsOnly : q.ph.wordsOnly = true → q.r = 0
  nonce : q.ph = .ksNonce → q.r.val ≤ 3

/-- The invariant of the machine: it holds after reset and every step keeps it. -/
structure State.Inv (s : State) : Prop where
  /-- SEQ is at a legal position (R26). -/
  seqLegal : s.seq.Legal
  /-- The phases of a command run only for that command (R25, R117). -/
  opInit : s.seq.ph.ofInit = true → s.latch.op = .init
  /-- The phases of PROCESS run only for PROCESS (R25, R149). -/
  opProcess : s.seq.ph.ofProcess = true → s.latch.op = .process
  /-- RST_CLEAR runs only for RESET (R25, R161). -/
  opReset : s.seq.ph = .rstClear → s.latch.op = .reset
  /-- Past KS_CHECK the key is not empty and the nonce is 16 bytes, so no index is taken modulo 0 (R111). -/
  checked : s.seq.ph.afterCheck = true → s.latch.klen ≠ 0#32 ∧ s.latch.nlen = 16#8
  /-- Inside a block OFF is below LEN and a multiple of 64 (R55, R141). -/
  offset : s.seq.ph.ofProcess = true → s.off.toNat < s.latch.len.toNat ∧ s.off.toNat % 64 = 0
  /-- Bytes wait on DOUT only while BLK_XOR waits for the host to take them (R200, entry 7). -/
  pending : s.io.dout ≠ [] → s.xorSent = true
  /-- The engine waits for the host to take bytes in BLK_XOR only (R200, entry 7). -/
  sent : s.xorSent = true → s.seq.ph = .blkXor
  /-- ILLEGAL_CMD excludes the other two causes (R178). -/
  errLegal : s.err.toNat ≤ 4

/-- The state at which an engine accepts commands: idle at (IDLE, 0, 0), RST released, nothing left of an earlier
command on DOUT (R26, R70, R200). -/
structure State.Ready (s : State) : Prop where
  idle : s.seq = Seq.idle
  released : s.io.rst = false
  nothingSent : s.xorSent = false

/-- The registers whose contents between commands are unspecified (W, OFF, the latches, KEYBUF, NW) take the values
they have in `d`, and so does the count of free values, so that later ones may differ too; everything else is as in `s`
(R24, R25, R27, U8). -/
def State.withDead (s d : State) : State := { s with W := d.W, latch := d.latch, off := d.off, draws := d.draws }

end Sys2Proof.Machine
end

