-- ==== Sys2Proof/Certificates/Slice0/Obligations.lean ====
section
/-! DEFINITION. The statements for the provers, from the spec's numbered rules. A frame is written
`t = { s with … }`: every field of State not named there is unchanged. -/

open Sys2Proof Sys2Proof.Machine

/-! ## Encoding and decode -/

/-- Every instruction's own word decodes to it, with every operand at every value its field admits (R71 to R74, R77,
R80): no bit of an encoding is dropped. -/
def Obligations.DecodeOfEncode : Prop :=
  ∀ i : Instr, i.wellFormed = true → decode (encode i) = .ok i

/-- The other direction: a word that decodes to an instruction is that instruction's encoding, and the instruction is
well-formed, so each word has one meaning and reserved bits are never ignored (R75, R76). -/
def Obligations.EncodeOfDecode : Prop :=
  ∀ (w : InstrWord) (i : Instr), decode w = .ok i → i.wellFormed = true ∧ encode i = w

/-- The illegal command words are exactly those R76 lists. -/
def Obligations.IllegalWordsAreExactlyThoseListed : Prop :=
  ∀ cw : BitVec 64,
    (∃ r, decode (.cmd64 cw) = .error r) ↔
      (cw.extractLsb' 56 8 = 0x00#8 ∨ 0x04 ≤ (cw.extractLsb' 56 8).toNat) ∨
      (cw.extractLsb' 56 8 = 0x01#8 ∧ cw.extractLsb' 32 16 ≠ 0#16) ∨
      (cw.extractLsb' 56 8 = 0x02#8 ∧ cw.extractLsb' 32 24 ≠ 0#24) ∨
      (cw.extractLsb' 56 8 = 0x03#8 ∧ cw.extractLsb' 0 56 ≠ 0#56)

/-- Words of the spec's decode table and phase codes of R80 decode to what the spec says they stand for, and every
phase but IDLE has a micro-operation. -/
def Obligations.SpecWordsDecode : Prop :=
  decode (.cmd64 0x0110000000000008#64) = .ok (.init 16 8) ∧
  decode (.cmd64 0x01FF0000FFFFFFFF#64) = .ok (.init 255 (2 ^ 32 - 1)) ∧
  decode (.cmd64 0x0200000000000040#64) = .ok (.process 64) ∧
  decode (.cmd64 0x0300000000000000#64) = .ok .reset ∧
  decode (.ph4 0b0100#4) = .ok .ksDiffuse ∧
  decode (.ph4 0b1001#4) = .ok .blkDiag ∧
  decode (.ph4 0b1110#4) = .ok .rstClear ∧
  decode (.cmd64 0x0110000100000008#64) = .error .initReserved ∧
  decode (.cmd64 0x0210000000000040#64) = .error .processUpper ∧
  decode (.cmd64 0x0300000000000001#64) = .error .resetOperand ∧
  decode (.cmd64 0x0000000000000000#64) = .error .opcode ∧
  ∀ ph : Phase, (∃ i, decode (.ph4 ph.code) = .ok i) ↔ ph ≠ .idle

/-! ## The step -/

/-- A step runs the decoded instruction: a busy engine the micro-operation its phase's code decodes to, an idle engine
the command the word at the port decodes to, the word taken from the port and nothing else added. -/
def Obligations.StepRunsDecodedInstruction : Prop :=
  (∀ (s : State) (i : Instr), s.io.rst = false → decode (.ph4 s.seq.ph.code) = .ok i → step s = exec i s) ∧
  (∀ (s : State) (cw : BitVec 64) (rest : List (BitVec 64)) (i : Instr),
    s.io.rst = false → s.seq.ph = .idle → s.io.cmd = cw :: rest → decode (.cmd64 cw) = .ok i →
      step s = exec i { s with io := { s.io with cmd := rest } })

/-- No step stops, whatever the state: nothing faults and nothing is refused. -/
def Obligations.EveryStepAnswersNext : Prop := ∀ s : State, ∃ t, step s = .next t

/-- An illegal command word is reported and has no other effect: ERR becomes 100, SEQ stays (IDLE, 0, 0), no byte moves
on DIN or DOUT; the word has left the port (R173). W, OFF and the latches are dead (R24, R25, R27): the statement does not
say what they hold. -/
def Obligations.IllegalCommandIsReported : Prop :=
  ∀ (s : State) (cw : BitVec 64) (rest : List (BitVec 64)) (r : DecodeReject),
    s.io.rst = false → s.seq = Seq.idle → s.io.cmd = cw :: rest → decode (.cmd64 cw) = .error r →
      ∃ t, step s = .next t ∧ t.err = 0b100#3 ∧ t.io.cmd = rest ∧ t.busy = false ∧
        t = { s with
          err := t.err, W := t.W, off := t.off, latch := t.latch, draws := t.draws
          io := { s.io with cmd := t.io.cmd } }

/-- While BUSY = 1 the port takes no word: a step leaves the words the host presents as they are. -/
def Obligations.BusyEngineTakesNoCommandWord : Prop :=
  ∀ s t : State, s.busy = true → step s = .next t → t.io.cmd = s.io.cmd

/-- In a busy state no command is given a transition of acceptance: it is refused by name (U3's "refuse / no step"; the
name is the model's, entry 13). -/
def Obligations.CommandsAreRefusedWhileBusy : Prop :=
  ∀ (s : State) (nlen klen len : Nat), s.busy = true →
    exec (.init nlen klen) s = .refused .commandWhileBusy ∧
    exec (.process len) s = .refused .commandWhileBusy ∧
    exec .reset s = .refused .commandWhileBusy

/-- An idle engine with no word at the port waits; nothing changes, however long. -/
def Obligations.IdleEngineWaits : Prop :=
  ∀ (s : State) (k : Nat), s.io.rst = false → s.seq.ph = .idle → s.io.cmd = [] → runs k s = .next s

/-! ## Reset -/

/-- The values R36 gives for hardware reset hold at reset, and STATUS reads 0. -/
def Obligations.ResetValues : Prop :=
  (∀ i : Index, State.reset.S[i] = 0#32) ∧ State.reset.ctrLo = 0#32 ∧ State.reset.ctrHi = 0#32 ∧
  State.reset.keyed = false ∧ State.reset.err = 0#3 ∧ State.reset.busy = false ∧
  State.reset.seq = ⟨.idle, 0, 0⟩ ∧ State.reset.io.din = [] ∧ State.reset.io.dout = [] ∧ State.reset.status = 0#8

/-- Asserting RST puts the engine in its reset state whatever the sequencer was doing; bytes the host has taken stay
taken, pending ones are dropped (R190, R192). It holds for as long as RST is asserted, the model's reading (entry 9),
bytes supplied on DIN meanwhile being dropped by the next step, the model's choice (entry 23). -/
def Obligations.RstAbortsToReset : Prop :=
  ∀ s : State,
    (s.io.rst = true → ∃ t, step s = .next t ∧
      (∀ i : Index, t.S[i] = 0#32) ∧ t.ctrLo = 0#32 ∧ t.ctrHi = 0#32 ∧ t.keyed = false ∧ t.err = 0#3 ∧
      t.busy = false ∧ t.seq = ⟨.idle, 0, 0⟩ ∧ t.io.din = [] ∧ t.io.dout = [] ∧ t.io.taken = s.io.taken) ∧
    (∀ t, t = hostAct (.setRst true) s →
      (∀ i : Index, t.S[i] = 0#32) ∧ t.ctrLo = 0#32 ∧ t.ctrHi = 0#32 ∧ t.keyed = false ∧ t.err = 0#3 ∧
      t.busy = false ∧ t.seq = ⟨.idle, 0, 0⟩ ∧ t.io.din = [] ∧ t.io.dout = [] ∧ t.io.taken = s.io.taken)

/-! ## Acceptance of the commands -/

/-- INIT accepted: OP, KLEN and NLEN are latched, SEQ becomes (KS_CHECK, 0, 0), BUSY rises; nothing else changes (that
LEN is not among the latched fields is entry 5). -/
def Obligations.InitIsAccepted : Prop :=
  ∀ (s : State) (nlen klen : Nat), s.busy = false → (Instr.init nlen klen).wellFormed = true →
    ∃ t, exec (.init nlen klen) s = .next t ∧ t.latch.op = .init ∧ t.latch.klen.toNat = klen ∧
      t.latch.nlen.toNat = nlen ∧ t.seq = ⟨.ksCheck, 0, 0⟩ ∧ t.busy = true ∧
      t = { s with
        latch := { s.latch with op := t.latch.op, klen := t.latch.klen, nlen := t.latch.nlen }, seq := t.seq }

/-- PROCESS accepted: OP and LEN are latched and OFF is 0; with LEN > 0 SEQ becomes (BLK_LOAD, 0, 0) and BUSY rises;
with LEN = 0 the command completes at once with ERR = 0, and what W and the latches then hold is not said. Nothing else
changes (entries 5, 18). -/
def Obligations.ProcessIsAccepted : Prop :=
  ∀ (s : State) (len : Nat), s.busy = false → (Instr.process len).wellFormed = true →
    ∃ t, exec (.process len) s = .next t ∧ t.off = 0#32 ∧
      (0 < len → t.latch.op = .process ∧ t.latch.len.toNat = len ∧ t.seq = ⟨.blkLoad, 0, 0⟩ ∧ t.busy = true ∧
        t = { s with latch := { s.latch with op := t.latch.op, len := t.latch.len }, off := t.off, seq := t.seq }) ∧
      (len = 0 → t.seq = Seq.idle ∧ t.busy = false ∧ t.err = 0#3 ∧
        t = { s with off := t.off, seq := t.seq, err := t.err, W := t.W, latch := t.latch, draws := t.draws })

/-- RESET accepted: OP is latched (entry 4), SEQ becomes (RST_CLEAR, 0, 0), BUSY rises; nothing else changes. -/
def Obligations.ResetIsAccepted : Prop :=
  ∀ s : State, s.busy = false →
    ∃ t, exec .reset s = .next t ∧ t.latch.op = .reset ∧ t.seq = ⟨.rstClear, 0, 0⟩ ∧ t.busy = true ∧
      t = { s with latch := { s.latch with op := t.latch.op }, seq := t.seq }

/-! ## The key_schedule FSM -/

/-- KS_CHECK with its operand bytes on DIN and valid lengths: it takes KLEN + NLEN bytes, keeps the first min(KLEN, 19)
key bytes in KEYBUF and the nonce as four big-endian words in NW, and goes on to KS_PACK. -/
def Obligations.KsCheckPasses : Prop :=
  ∀ (s : State) (key nonce more : List Byte),
    s.io.din = key ++ nonce ++ more → s.latch.klen.toNat = key.length → s.latch.nlen.toNat = nonce.length →
    key ≠ [] → nonce.length = 16 →
    ∃ t, exec .ksCheck s = .next t ∧ t.io.din = more ∧
      (∀ p : Fin 19, ∀ b, key[p.val]? = some b → t.latch.keybuf[p] = b) ∧
      (∀ j : Fin 4, ∀ b0 b1 b2 b3, nonce[4 * j.val]? = some b0 → nonce[4 * j.val + 1]? = some b1 →
        nonce[4 * j.val + 2]? = some b2 → nonce[4 * j.val + 3]? = some b3 →
        t.latch.nw[j] = (b0 ++ b1 ++ b2 ++ b3 : BitVec 32)) ∧
      t.seq = ⟨.ksPack, 0, 0⟩ ∧
      t = { s with
        latch := { s.latch with keybuf := t.latch.keybuf, nw := t.latch.nw }, io := { s.io with din := more },
        seq := t.seq }

/-- KS_CHECK with its operand bytes on DIN and an empty key or a nonce that is not 16 bytes: the command ends, ERR has
the bits of both causes that apply, KLEN + NLEN bytes have left DIN, nothing is put on DOUT; S, CTR and KEYED are
unchanged. W, OFF and the latches are dead: the statement does not say what they hold. -/
def Obligations.KsCheckFails : Prop :=
  ∀ s : State, s.latch.klen.toNat + s.latch.nlen.toNat ≤ s.io.din.length →
    s.latch.klen = 0#32 ∨ s.latch.nlen ≠ 16#8 →
    ∃ t, exec .ksCheck s = .next t ∧
      (t.err.getLsbD 0 = true ↔ s.latch.klen = 0#32) ∧ (t.err.getLsbD 1 = true ↔ s.latch.nlen ≠ 16#8) ∧
      t.err.getLsbD 2 = false ∧ t.seq = Seq.idle ∧ t.busy = false ∧
      t.io.din = s.io.din.drop (s.latch.klen.toNat + s.latch.nlen.toNat) ∧
      t = { s with
        err := t.err, seq := t.seq, W := t.W, off := t.off, latch := t.latch, draws := t.draws,
        io := { s.io with din := t.io.din } }

/-- KS_PACK: with a key of KLEN ≥ 1 bytes whose first 19 are in KEYBUF, W[i] takes its bytes at positions i, i+1, i+2,
i+3 modulo KLEN, the first the most significant; the other words of W and everything else stay; then the next word, or
KS_NONCE (R112). -/
def Obligations.KsPackResult : Prop :=
  ∀ (s : State) (key : List Byte), key ≠ [] → s.latch.klen.toNat = key.length →
    (∀ p : Fin 19, ∀ b, key[p.val]? = some b → s.latch.keybuf[p] = b) →
    ∃ t b0 b1 b2 b3, exec .ksPack s = .next t ∧
      key[s.seq.i.val % key.length]? = some b0 ∧ key[(s.seq.i.val + 1) % key.length]? = some b1 ∧
      key[(s.seq.i.val + 2) % key.length]? = some b2 ∧ key[(s.seq.i.val + 3) % key.length]? = some b3 ∧
      t.W[s.seq.i].toNat = b0.toNat * 2 ^ 24 + b1.toNat * 2 ^ 16 + b2.toNat * 2 ^ 8 + b3.toNat ∧
      (∀ j : Index, j ≠ s.seq.i → t.W[j] = s.W[j]) ∧
      t.seq = (if s.seq.i.val < 15 then ⟨.ksPack, s.seq.r, s.seq.i + 1⟩ else ⟨.ksNonce, 0, 0⟩) ∧
      t = { s with W := t.W, seq := t.seq }

/-- KS_PACK with KLEN = 0, which no run reaches, runs too in the model (entry 10): W[i] is free and is all that is
written beside SEQ. -/
def Obligations.KsPackRunsWithoutAKey : Prop :=
  ∀ s : State, s.latch.klen = 0#32 →
    ∃ t, exec .ksPack s = .next t ∧ (∀ j : Index, j ≠ s.seq.i → t.W[j] = s.W[j]) ∧
      t.seq = (if s.seq.i.val < 15 then ⟨.ksPack, s.seq.r, s.seq.i + 1⟩ else ⟨.ksNonce, 0, 0⟩) ∧
      t = { s with W := t.W, seq := t.seq }

/-- KS_NONCE: `W[i] <- W[i] ^ T((n_j + i) mod 2^32)` with j in SEQ.r; then the next word, the next nonce word, or
KS_DIFFUSE (R113, R117). -/
def Obligations.KsNonceResult : Prop :=
  ∀ (s : State) (j : Fin 4), s.seq.r.val = j.val →
    ∃ t, exec .ksNonce s = .next t ∧
      t.W[s.seq.i] = s.W[s.seq.i] ^^^ T (BitVec.ofNat 32 (s.latch.nw[j].toNat + s.seq.i.val)) ∧
      (∀ k : Index, k ≠ s.seq.i → t.W[k] = s.W[k]) ∧
      t.seq = (if s.seq.i.val < 15 then ⟨.ksNonce, s.seq.r, s.seq.i + 1⟩
        else if j.val < 3 then ⟨.ksNonce, s.seq.r + 1, 0⟩ else ⟨.ksDiffuse, 0, 0⟩) ∧
      t = { s with W := t.W, seq := t.seq }

/-- KS_DIFFUSE: W[i] becomes T(W[i]) ^ Mix(W[i+1], W[i+7], W[i+13]) of the words as they stand; then the next word, the
next of 20 rounds, or KS_COMMIT. There is no diagonal pass. -/
def Obligations.KsDiffuseResult : Prop :=
  ∀ s : State, ∃ t, exec .ksDiffuse s = .next t ∧
    t.W[s.seq.i] = T s.W[s.seq.i] ^^^ Mix s.W[s.seq.i + 1] s.W[s.seq.i + 7] s.W[s.seq.i + 13] ∧
    (∀ k : Index, k ≠ s.seq.i → t.W[k] = s.W[k]) ∧
    t.seq = (if s.seq.i.val < 15 then ⟨.ksDiffuse, s.seq.r, s.seq.i + 1⟩
      else if s.seq.r.val < 19 then ⟨.ksDiffuse, s.seq.r + 1, 0⟩ else ⟨.ksCommit, 0, 0⟩) ∧
    t = { s with W := t.W, seq := t.seq }

/-- KS_COMMIT: S <- W, CTR <- (0, 0), KEYED <- 1, ERR <- 0, and the engine is idle; the streams are unchanged. W,
OFF and the latches, KEYBUF and NW among them, are out of the frame: they are unspecified from here on (R24, R25, R27). -/
def Obligations.KsCommitResult : Prop :=
  ∀ s : State, ∃ t, exec .ksCommit s = .next t ∧
    (∀ i : Index, t.S[i] = s.W[i]) ∧ t.ctrLo = 0#32 ∧ t.ctrHi = 0#32 ∧ t.keyed = true ∧ t.err = 0#3 ∧
    t.seq = ⟨.idle, 0, 0⟩ ∧ t.busy = false ∧
    t = { s with
      S := t.S, ctrLo := t.ctrLo, ctrHi := t.ctrHi, keyed := t.keyed, err := t.err, seq := t.seq
      W := t.W, off := t.off, latch := t.latch, draws := t.draws }

/-! ## Keystream generation -/

/-- BLK_LOAD: W <- S, S unchanged. -/
def Obligations.BlkLoadResult : Prop :=
  ∀ s : State, ∃ t, exec .blkLoad s = .next t ∧ (∀ i : Index, t.W[i] = s.S[i]) ∧ t.seq = ⟨.blkInject, 0, 0⟩ ∧
    t = { s with W := t.W, seq := t.seq }

/-- BLK_INJECT: W[i] ^ T(CTR_LO + i) ^ T(CTR_HI + i), both sums modulo 2^32; then the next word or BLK_COL. -/
def Obligations.BlkInjectResult : Prop :=
  ∀ s : State, ∃ t, exec .blkInject s = .next t ∧
    t.W[s.seq.i] = s.W[s.seq.i] ^^^ T (BitVec.ofNat 32 (s.ctrLo.toNat + s.seq.i.val)) ^^^
      T (BitVec.ofNat 32 (s.ctrHi.toNat + s.seq.i.val)) ∧
    (∀ k : Index, k ≠ s.seq.i → t.W[k] = s.W[k]) ∧
    t.seq = (if s.seq.i.val < 15 then ⟨.blkInject, s.seq.r, s.seq.i + 1⟩ else ⟨.blkCol, 0, 0⟩) ∧
    t = { s with W := t.W, seq := t.seq }

/-- When CTR_LO = CTR_HI the two injected terms cancel and BLK_INJECT leaves W as it is; and the injection is symmetric
in the two halves. -/
def Obligations.InjectionCancelsAndIsSymmetric : Prop :=
  (∀ s : State, s.ctrLo = s.ctrHi → ∃ t, exec .blkInject s = .next t ∧ t.W = s.W) ∧
  (∀ (s : State) (a b : Word), ∃ t u, exec .blkInject { s with ctrLo := a, ctrHi := b } = .next t ∧
    exec .blkInject { s with ctrLo := b, ctrHi := a } = .next u ∧ t.W = u.W)

/-- BLK_COL: W[i] becomes T(W[i]) ^ Mix(W[i+1], W[i+7], W[i+13]) of the words as they stand; then the next word, or
the diagonal pass of the same round. -/
def Obligations.BlkColResult : Prop :=
  ∀ s : State, ∃ t, exec .blkCol s = .next t ∧
    t.W[s.seq.i] = T s.W[s.seq.i] ^^^ Mix s.W[s.seq.i + 1] s.W[s.seq.i + 7] s.W[s.seq.i + 13] ∧
    (∀ k : Index, k ≠ s.seq.i → t.W[k] = s.W[k]) ∧
    t.seq = (if s.seq.i.val < 15 then ⟨.blkCol, s.seq.r, s.seq.i + 1⟩ else ⟨.blkDiag, s.seq.r, 0⟩) ∧
    t = { s with W := t.W, seq := t.seq }

/-- BLK_DIAG: with idx = (5 i) mod 16, W[idx] becomes T(W[idx]) ^ Mix(W[idx+3], W[idx+9], W[idx+14]) of the words as
they stand; then the next word, the column pass of the next of 20 rounds, or BLK_XOR. -/
def Obligations.BlkDiagResult : Prop :=
  ∀ (s : State) (idx : Index), idx.val = (5 * s.seq.i.val) % 16 →
    ∃ t, exec .blkDiag s = .next t ∧
      t.W[idx] = T s.W[idx] ^^^ Mix s.W[idx + 3] s.W[idx + 9] s.W[idx + 14] ∧
      (∀ k : Index, k ≠ idx → t.W[k] = s.W[k]) ∧
      t.seq = (if s.seq.i.val < 15 then ⟨.blkDiag, s.seq.r, s.seq.i + 1⟩
        else if s.seq.r.val < 19 then ⟨.blkCol, s.seq.r + 1, 0⟩ else ⟨.blkXor, 0, 0⟩) ∧
      t = { s with W := t.W, seq := t.seq }

/-! ## xor_datapath and the streams -/

/-- BLK_XOR with the block's n bytes on DIN and the host taking: the first n bytes leave DIN, each goes out
exclusive-ored with its keystream byte W[k / 4][8 (k % 4) + 7 : 8 (k % 4)], in order, and the counter increment
follows. S, CTR and W are unchanged (R138). Bytes that went out are those the host has taken and those pending. -/
def Obligations.BlkXorSendsTheBlock : Prop :=
  ∀ (s : State) (data more : List Byte),
    s.xorSent = false → s.io.taking = true → s.io.din = data ++ more →
    data.length = min (s.latch.len.toNat - s.off.toNat) 64 →
    ∃ t out, exec .blkXor s = .next t ∧ out.length = data.length ∧
      (∀ (k : Fin 64) (b : Byte), data[k.val]? = some b →
        out[k.val]? = some (b ^^^ (s.W[k.val / 4]).extractLsb' (8 * (k.val % 4)) 8)) ∧
      t.io.din = more ∧ t.output = s.output ++ out ∧ t.seq = ⟨.blkCtrinc, 0, 0⟩ ∧
      t = { s with io := { s.io with din := t.io.din, dout := t.io.dout, taken := t.io.taken }, seq := t.seq }

/-- BLK_XOR and a host that does not take at once (the model's reading of R200, entry 7), in every case. Nothing sent
yet and the host not taking: the block's bytes go out on DOUT after those pending there, once, and the engine waits in
BLK_XOR for as long as the host does nothing. Bytes pending, some already taken or none, and the host still not taking:
the state stays as it is. The host taking again: everything pending is taken, and the counter increment follows. Nothing
pending any more: the counter increment follows. -/
def Obligations.BlkXorWaitsForTheHostToTake : Prop :=
  (∀ (s : State), s.xorSent = false → s.io.taking = false → s.seq.ph = .blkXor → s.blockLen ≤ s.io.din.length →
    0 < s.blockLen →
    ∃ t, exec .blkXor s = .next t ∧
      t.io.dout = s.io.dout ++ xorBytes (s.io.din.take s.blockLen) s.W ∧ t.io.din = s.io.din.drop s.blockLen ∧
      t.xorSent = true ∧
      t = { s with io := { s.io with din := t.io.din, dout := t.io.dout }, xorSent := true } ∧
      (s.io.rst = false → ∀ k, runs k t = .next t)) ∧
  (∀ s : State, s.xorSent = true → s.io.taking = false → s.io.dout ≠ [] →
    exec .blkXor s = .next s ∧ (s.io.rst = false → s.seq.ph = .blkXor → ∀ k, runs k s = .next s)) ∧
  (∀ s : State, s.xorSent = true → s.io.taking = true →
    ∃ t, exec .blkXor s = .next t ∧ t.io.dout = [] ∧ t.io.taken = s.io.taken ++ s.io.dout ∧ t.xorSent = false ∧
      t.seq = ⟨.blkCtrinc, 0, 0⟩ ∧
      t = { s with
        io := { s.io with dout := t.io.dout, taken := t.io.taken }, xorSent := t.xorSent, seq := t.seq }) ∧
  (∀ s : State, s.xorSent = true → s.io.dout = [] →
    ∃ t, exec .blkXor s = .next t ∧ t.xorSent = false ∧ t.seq = ⟨.blkCtrinc, 0, 0⟩ ∧
      t = { s with xorSent := t.xorSent, seq := t.seq })

/-- A host that stops supplying bytes leaves the engine waiting for ever, in KS_CHECK or in BLK_XOR, with no error. That
nothing at all changes while only part of the bytes is on DIN (none of them taken, none put out on DOUT) is the model's
choice, entry 6. -/
def Obligations.EngineWaitsForInputForEver : Prop :=
  ∀ (s : State) (k : Nat), s.io.rst = false →
    (s.seq.ph = .ksCheck ∧ s.io.din.length < s.latch.klen.toNat + s.latch.nlen.toNat) ∨
    (s.seq.ph = .blkXor ∧ s.xorSent = false ∧
      s.io.din.length < min (s.latch.len.toNat - s.off.toNat) 64) →
    runs k s = .next s

/-! ## block_counter, ratchet and the block loop -/

/-- BLK_CTRINC: CTR_LO advances by one modulo 2^32, and CTR_HI too exactly when CTR_LO wrapped to 0; no flag is touched;
the ratchet follows (R139). -/
def Obligations.BlkCtrincResult : Prop :=
  ∀ s : State, ∃ t, exec .blkCtrinc s = .next t ∧ t.ctrLo.toNat = (s.ctrLo.toNat + 1) % 2 ^ 32 ∧
    (t.ctrLo = 0#32 → t.ctrHi.toNat = (s.ctrHi.toNat + 1) % 2 ^ 32) ∧ (t.ctrLo ≠ 0#32 → t.ctrHi = s.ctrHi) ∧
    t.seq = ⟨.blkRatchet, 0, 0⟩ ∧ t = { s with ctrLo := t.ctrLo, ctrHi := t.ctrHi, seq := t.seq }

/-- BLK_RATCHET: S[i] becomes T(S[i] ^ W[i]) ^ Mix(S[i+1], S[i+7], S[i+13]) of the words of S as they stand; W is not
written; then the next word or BLK_NEXT. -/
def Obligations.BlkRatchetResult : Prop :=
  ∀ s : State, ∃ t, exec .blkRatchet s = .next t ∧
    t.S[s.seq.i] = T (s.S[s.seq.i] ^^^ s.W[s.seq.i]) ^^^
      Mix s.S[s.seq.i + 1] s.S[s.seq.i + 7] s.S[s.seq.i + 13] ∧
    (∀ k : Index, k ≠ s.seq.i → t.S[k] = s.S[k]) ∧
    t.seq = (if s.seq.i.val < 15 then ⟨.blkRatchet, s.seq.r, s.seq.i + 1⟩ else ⟨.blkNext, 0, 0⟩) ∧
    t = { s with S := t.S, seq := t.seq }

/-- BLK_NEXT: OFF advances by n; while input is left the next block is loaded and nothing else changes; when it is
consumed ERR <- 0 and the engine is idle, and W and the latches, unspecified from there on (R24, R25), are out of the
frame. -/
def Obligations.BlkNextResult : Prop :=
  ∀ (s : State) (n : Nat), s.off.toNat < s.latch.len.toNat → n = min (s.latch.len.toNat - s.off.toNat) 64 →
    ∃ t, exec .blkNext s = .next t ∧ t.off.toNat = s.off.toNat + n ∧
      (s.off.toNat + n < s.latch.len.toNat →
        t.seq = ⟨.blkLoad, 0, 0⟩ ∧ t = { s with off := t.off, seq := t.seq }) ∧
      (s.off.toNat + n = s.latch.len.toNat →
        t.seq = ⟨.idle, 0, 0⟩ ∧ t.err = 0#3 ∧ t.busy = false ∧
        t = { s with off := t.off, seq := t.seq, err := t.err, W := t.W, latch := t.latch, draws := t.draws })

/-- RST_CLEAR: S, CTR, KEYED and ERR become 0 and the engine is idle; W, the latches, OFF and the streams are
unchanged. -/
def Obligations.RstClearResult : Prop :=
  ∀ s : State, ∃ t, exec .rstClear s = .next t ∧
    (∀ i : Index, t.S[i] = 0#32) ∧ t.ctrLo = 0#32 ∧ t.ctrHi = 0#32 ∧ t.keyed = false ∧ t.err = 0#3 ∧
    t.seq = ⟨.idle, 0, 0⟩ ∧ t.busy = false ∧
    t = { s with S := t.S, ctrLo := t.ctrLo, ctrHi := t.ctrHi, keyed := t.keyed, err := t.err, seq := t.seq }

/-! ## The datapath functions -/

/-- Bit (b + s) mod 32 of rotl(v, s) is bit b of v, for every s from 0 to 31; s = 0 is the identity. -/
def Obligations.RotlMovesEachBit : Prop :=
  ∀ (v : Word) (s b : Nat), s < 32 → b < 32 → (rotl v s).getLsbD ((b + s) % 32) = v.getLsbD b

/-- Bit b of rotr(v, s) is bit (b + s) mod 32 of v, and rotr undoes rotl. -/
def Obligations.RotrMovesEachBitAndUndoesRotl : Prop :=
  ∀ (v : Word) (s b : Nat), s < 32 → b < 32 →
    (rotr v s).getLsbD b = v.getLsbD ((b + s) % 32) ∧ rotr v s = rotl v ((32 - s) % 32) ∧ rotr (rotl v s) s = v

/-- T is not a bijection: every word has a partner with the same image (R97's inference from R92). -/
def Obligations.EveryWordHasATransformPartner : Prop := ∀ x : Word, ∃ y : Word, y ≠ x ∧ T y = T x

/-- The spec's worked values of rotl, rotr, T, Mix and UPD. -/
def Obligations.DatapathWorkedExamples : Prop :=
  rotl 0x12345678#32 13 = 0x8ACF0246#32 ∧ rotr 0x12345678#32 17 = 0x2B3C091A#32 ∧
  T 0x00000001#32 = 0x765D89B6#32 ∧ T 0xFFFFFFFF#32 = 0x6F306A12#32 ∧ T 0x12345678#32 = 0xB2E5A0C4#32 ∧
  T 0x33E9569A#32 = T 0#32 ∧ T 0x2265B1F5#32 = 0x6DA4A1B6#32 ∧ T 0x34871829#32 = 0x6DA4A1B6#32 ∧
  Mix 1#32 0#32 0#32 = 0x9CBDD861#32 ∧ Mix 0#32 1#32 0#32 = 0x50EC31FF#32 ∧
  Mix 0#32 0#32 1#32 = 0xB36DCC1D#32 ∧ Mix 1#32 2#32 3#32 = 0x00160BA6#32 ∧
  (upd (Vector.ofFn fun k => BitVec.ofNat 32 (k.val * 0x01010101)) 5 0#32 ⟨3, 9, 14⟩)[5] = 0x77CB8716#32

/-- UPD with the engine's offsets: the word at t becomes T(A[t] ^ e) ^ Mix of three neighbours, every read of A taken
from the array as it stands when the update starts; the other 15 words stay. -/
def Obligations.UpdReadsTheArrayBeforeItsWrite : Prop :=
  ∀ (a : Words) (t : Index) (e : Word) (o : Offsets), o = ⟨1, 7, 13⟩ ∨ o = ⟨3, 9, 14⟩ →
    (upd a t e o)[t] = T (a[t] ^^^ e) ^^^ Mix a[t + o.o1] a[t + o.o2] a[t + o.o3] ∧
    ∀ k : Index, k ≠ t → (upd a t e o)[k] = a[k]

/-! ## Whole-machine rules -/

/-- The invariant of `Safety.lean` holds at reset, and the host's moves keep it. -/
def Obligations.InvariantAtResetAndUnderHostMoves : Prop :=
  State.Inv State.reset ∧ ∀ (a : HostAction) (s : State), s.Inv → (hostAct a s).Inv

/-- Every step keeps the invariant: SEQ at a legal position of a phase of the command in flight, no index modulo 0
past KS_CHECK, OFF inside the buffer, bytes pending on DOUT only in BLK_XOR, ERR a value of R170. -/
def Obligations.StepKeepsInvariant : Prop := ∀ s t : State, s.Inv → step s = .next t → t.Inv

/-- S is written by the INIT commit, the ratchet, RESET and the hardware reset, and by nothing else. -/
def Obligations.OnlyThreePhasesAndRstWriteS : Prop :=
  ∀ s t : State, step s = .next t → t.S ≠ s.S →
    s.io.rst = true ∨ s.seq.ph = .ksCommit ∨ s.seq.ph = .blkRatchet ∨ s.seq.ph = .rstClear

/-- CTR is written by the INIT commit, the counter increment, RESET and the hardware reset; KEYED is set by the INIT
commit and cleared by RESET and the hardware reset. Nothing else writes them. -/
def Obligations.WritersOfCounterAndKeyed : Prop :=
  ∀ s t : State, step s = .next t →
    (t.ctrLo ≠ s.ctrLo ∨ t.ctrHi ≠ s.ctrHi →
      s.io.rst = true ∨ s.seq.ph = .ksCommit ∨ s.seq.ph = .blkCtrinc ∨ s.seq.ph = .rstClear) ∧
    (t.keyed = true → s.keyed = false → s.seq.ph = .ksCommit) ∧
    (t.keyed = false → s.keyed = true → s.io.rst = true ∨ s.seq.ph = .rstClear)

/-- ERR is written only where a command completes: a step that changes it leaves the engine idle. -/
def Obligations.ErrChangesOnlyAtCompletion : Prop :=
  ∀ s t : State, step s = .next t → t.err ≠ s.err → t.seq = Seq.idle

/-- No datapath rule reads KEYED or ERR: a step from a state with other values in them does the same to everything
else. -/
def Obligations.NoStepReadsKeyedOrErr : Prop :=
  ∀ (s t : State) (b : Bool) (e : BitVec 3), step s = .next t →
    ∃ u, step { s with keyed := b, err := e } = .next u ∧ u = { t with keyed := u.keyed, err := u.err }

/-- Keystream and state do not depend on the data: in a phase of PROCESS, two engines that differ only in the contents
(not the number) of the bytes on DIN and DOUT step to states that differ only there. -/
def Obligations.ProcessStateIgnoresTheData : Prop :=
  ∀ (s t : State) (din dout taken : List Byte), s.io.rst = false → s.seq.ph.ofProcess = true →
    din.length = s.io.din.length → dout.length = s.io.dout.length → step s = .next t →
    ∃ u, step { s with io := { s.io with din := din, dout := dout, taken := taken } } = .next u ∧
      u = { t with io := { t.io with din := u.io.din, dout := u.io.dout, taken := u.io.taken } } ∧
      u.io.din.length = t.io.din.length ∧ u.io.dout.length = t.io.dout.length

/-- The contents of W, OFF, the latches, KEYBUF and NW between commands are never observed: two idle engines that
differ in nothing else (the free values that later completions leave there included, entry 3) show the same STATUS and
DOUT bytes after any number of steps, and have the same S and CTR. -/
def Obligations.DeadRegistersAreNeverObserved : Prop :=
  ∀ (s d : State) (k : Nat), s.Inv → s.seq.ph = .idle →
    ∃ t u, runs k s = .next t ∧ runs k (s.withDead d) = .next u ∧ t.observed = u.observed ∧ t.arch = u.arch

/-- STATUS: BUSY in bit 0 (1 iff PH is not IDLE), KEYED in bit 1, ERR in bits 6:4, and bits 7, 3 and 2 read 0. -/
def Obligations.StatusLayout : Prop :=
  ∀ s : State, (s.status.getLsbD 0 = true ↔ s.seq.ph ≠ .idle) ∧ s.status.getLsbD 1 = s.keyed ∧
    s.status.getLsbD 2 = false ∧ s.status.getLsbD 3 = false ∧ s.status.extractLsb' 4 3 = s.err ∧
    s.status.getLsbD 7 = false

/-- The host changes the engine only by commands and by the hardware reset: its other moves change nothing but the
channels. -/
def Obligations.HostMovesChangeOnlyTheChannels : Prop :=
  ∀ (a : HostAction) (s : State), a ≠ .setRst true → hostAct a s = { s with io := (hostAct a s).io }

/-! ## The command level -/

/-- INIT, from acceptance to IDLE, does what R110 says in one transition, in exactly 1 + 402 steps when it succeeds and
1 + 1 when it fails: S, CTR, KEYED and ERR as there, KLEN + NLEN bytes taken from DIN, none put on DOUT. The key and the
nonce are not retained: what W, OFF, KEYBUF, NW and the other latches then hold is what `discardTransients` draws at `s`, free
values that depend on no key, nonce or register (R34, R120; the free values are the model's form, entry 3). -/
def Obligations.InitRunsToItsCommandEffect : Prop :=
  ∀ (s : State) (key nonce more : List Byte), s.Ready → (Instr.init nonce.length key.length).wellFormed = true →
    s.io.din = key ++ nonce ++ more →
    ∃ s1 t, exec (.init nonce.length key.length) s = .next s1 ∧
      runs (if key ≠ [] ∧ nonce.length = 16 then 402 else 1) s1 = .next t ∧
      t.arch = initCommand key nonce s.arch ∧ t.seq = Seq.idle ∧
      t.io = { s.io with din := more } ∧
      t.W = (discardTransients s).W ∧ t.off = (discardTransients s).off ∧ t.latch = (discardTransients s).latch ∧
      ∀ u : State, u.draws = s.draws → (discardTransients u).W = t.W ∧ (discardTransients u).off = t.off ∧
        (discardTransients u).latch = t.latch

/-- PROCESS, from acceptance to IDLE with the host taking, does what R130 says in one transition, in exactly
1 + 676 × ceil(LEN / 64) steps: the LEN output bytes follow whatever went out before, S, CTR and ERR are as there, KEYED
is unchanged, LEN bytes have left DIN. Nothing of the data or the keystream is left in W or the latches (entry 3). A host
that does not take is the subject of BlkXorWaitsForTheHostToTake. -/
def Obligations.ProcessRunsToItsCommandEffect : Prop :=
  ∀ (s : State) (data more : List Byte), s.Ready → s.io.taking = true →
    (Instr.process data.length).wellFormed = true → s.io.din = data ++ more →
    ∃ s1 t, exec (.process data.length) s = .next s1 ∧ runs (676 * blockCount data.length) s1 = .next t ∧
      t.arch = (processCommand data s.arch).1 ∧ t.output = s.output ++ (processCommand data s.arch).2 ∧
      t.seq = Seq.idle ∧ t.io.din = more ∧ t.io.cmd = s.io.cmd ∧
      t.W = (discardTransients s).W ∧ t.latch = (discardTransients s).latch

/-- RESET, from acceptance to IDLE, takes two steps and does what R160 says. W, OFF, the latches but OP, and the
channels are unchanged. -/
def Obligations.ResetRunsToItsCommandEffect : Prop :=
  ∀ s : State, s.Ready →
    ∃ s1 t, exec .reset s = .next s1 ∧ runs 1 s1 = .next t ∧ t.arch = resetCommand s.arch ∧ t.seq = Seq.idle ∧
      t.io = s.io ∧ t.W = s.W ∧ t.off = s.off ∧ t.latch = { s.latch with op := .reset }

/-- Key bytes at positions 19 and above have no effect, nor has the length: two keys of at least 19 bytes with the same
first 19 give the same result. -/
def Obligations.OnlyNineteenKeyBytesMatter : Prop :=
  ∀ (key key' nonce : List Byte) (a : Arch), 19 ≤ key.length → 19 ≤ key'.length → key.take 19 = key'.take 19 →
    initCommand key nonce a = initCommand key' nonce a

/-- Permuting the four nonce words does not change the folded array, and two pairs of equal words leave it as it was. -/
def Obligations.NonceWordOrderDoesNotMatter : Prop :=
  ∀ (w : Words) (n m : Vector Word 4), n.toList.Perm m.toList →
    foldNonce w n = foldNonce w m ∧ (n[0] = n[1] → n[2] = n[3] → foldNonce w m = w)

/-- The all-zero state: with S = 0 and equal counter halves the keystream block is all zero and the ratchet leaves
S = 0. -/
def Obligations.AllZeroStateGivesAZeroBlock : Prop :=
  ∀ (a : Arch) (c : Word), a.S = zeroWords → a.ctrLo = c → a.ctrHi = c →
    keystreamBlock a = zeroWords ∧ keystreamBytes (keystreamBlock a) = List.replicate 64 0#8 ∧
      (afterBlock a).S = zeroWords

/-- A PROCESS of LEN bytes puts out LEN bytes, advances the 64-bit counter by ceil(LEN / 64) modulo 2^64, and leaves
KEYED as it was. -/
def Obligations.ProcessCountsBlocks : Prop :=
  ∀ (buf : List Byte) (a : Arch),
    (processCommand buf a).2.length = buf.length ∧
    ((processCommand buf a).1.ctrHi ++ (processCommand buf a).1.ctrLo : BitVec 64) =
      (a.ctrHi ++ a.ctrLo) + BitVec.ofNat 64 ((buf.length + 63) / 64) ∧
    (processCommand buf a).1.keyed = a.keyed ∧ (processCommand buf a).1.err = 0#3

/-- A partial block costs a whole one: after any PROCESS of 1 to 64 bytes the state is the one after one block,
whatever the bytes and their number; after a PROCESS of none only ERR is written. -/
def Obligations.PartialBlockConsumesAWholeBlock : Prop :=
  ∀ (buf : List Byte) (a : Arch),
    (buf ≠ [] → buf.length ≤ 64 → (processCommand buf a).1 = { afterBlock a with err := 0#3 }) ∧
    (buf = [] → processCommand buf a = ({ a with err := 0#3 }, []))

/-- Determinism: for fixed (S, CTR) at the start and PROCESS commands of a fixed sequence of lengths, the output is a
function of the input bytes only, the state after them does not depend on the data at all, and each output byte is its
input byte exclusive-ored with a keystream byte that does not depend on the data either. KEYED and ERR at the start make no
difference to S, CTR or the output; where they are fixed too, the whole end state is. -/
def Obligations.StateAndKeystreamIgnoreTheData : Prop :=
  ∀ (bufs bufs' : List (List Byte)) (a a' : Arch), bufs.map List.length = bufs'.map List.length →
    a.S = a'.S → a.ctrLo = a'.ctrLo → a.ctrHi = a'.ctrHi →
    (processMany bufs a).1.S = (processMany bufs' a').1.S ∧
    (processMany bufs a).1.ctrLo = (processMany bufs' a').1.ctrLo ∧
    (processMany bufs a).1.ctrHi = (processMany bufs' a').1.ctrHi ∧
    (a = a' → (processMany bufs a).1 = (processMany bufs' a').1) ∧
    (bufs = bufs' → (processMany bufs a).2 = (processMany bufs' a').2) ∧
    List.zipWith (· ^^^ ·) (processMany bufs a).2.flatten bufs.flatten =
      List.zipWith (· ^^^ ·) (processMany bufs' a').2.flatten bufs'.flatten

/-- Encryption and decryption are the same command: PROCESS commands of the same lengths, from the same state, on the
outputs of the first give back the inputs and end in the same state; so do two engines, whatever state each was in, after
the same valid INIT. -/
def Obligations.ProcessingTheOutputsRestoresTheInputs : Prop :=
  (∀ (bufs : List (List Byte)) (a : Arch),
    processMany (processMany bufs a).2 a = ((processMany bufs a).1, bufs)) ∧
  (∀ (bufs : List (List Byte)) (key nonce : List Byte) (a a' : Arch), key ≠ [] → nonce.length = 16 →
    (processMany (processMany bufs (initCommand key nonce a)).2 (initCommand key nonce a')).2 = bufs)

/-- The chunking law: a stream cut at a multiple of 64 bytes gives the same output and the same end state as one
PROCESS of the whole. -/
def Obligations.ChunkingAtBlockBoundaries : Prop :=
  ∀ (x y : List Byte) (a : Arch), 64 ∣ x.length →
    processCommand (x ++ y) a =
      ((processCommand y (processCommand x a).1).1,
        (processCommand x a).2 ++ (processCommand y (processCommand x a).1).2)
end

