-- ==== Sys2Proof/Laws/State.lean ====
section
/-! SUPPORT. What each one-field update of State leaves in each field. -/

namespace Sys2Proof.Machine

variable (s : State)

@[simp] theorem State.setS_S (v : Words) : (s.setS v).S = v := rfl
@[simp] theorem State.setS_ctrLo (v : Words) : (s.setS v).ctrLo = s.ctrLo := rfl
@[simp] theorem State.setS_ctrHi (v : Words) : (s.setS v).ctrHi = s.ctrHi := rfl
@[simp] theorem State.setS_W (v : Words) : (s.setS v).W = s.W := rfl
@[simp] theorem State.setS_keyed (v : Words) : (s.setS v).keyed = s.keyed := rfl
@[simp] theorem State.setS_err (v : Words) : (s.setS v).err = s.err := rfl
@[simp] theorem State.setS_latch (v : Words) : (s.setS v).latch = s.latch := rfl
@[simp] theorem State.setS_seq (v : Words) : (s.setS v).seq = s.seq := rfl
@[simp] theorem State.setS_off (v : Words) : (s.setS v).off = s.off := rfl
@[simp] theorem State.setS_xorSent (v : Words) : (s.setS v).xorSent = s.xorSent := rfl
@[simp] theorem State.setS_draws (v : Words) : (s.setS v).draws = s.draws := rfl
@[simp] theorem State.setS_io (v : Words) : (s.setS v).io = s.io := rfl

@[simp] theorem State.setCtr_S (lo hi : Word) : (s.setCtr lo hi).S = s.S := rfl
@[simp] theorem State.setCtr_ctrLo (lo hi : Word) : (s.setCtr lo hi).ctrLo = lo := rfl
@[simp] theorem State.setCtr_ctrHi (lo hi : Word) : (s.setCtr lo hi).ctrHi = hi := rfl
@[simp] theorem State.setCtr_W (lo hi : Word) : (s.setCtr lo hi).W = s.W := rfl
@[simp] theorem State.setCtr_keyed (lo hi : Word) : (s.setCtr lo hi).keyed = s.keyed := rfl
@[simp] theorem State.setCtr_err (lo hi : Word) : (s.setCtr lo hi).err = s.err := rfl
@[simp] theorem State.setCtr_latch (lo hi : Word) : (s.setCtr lo hi).latch = s.latch := rfl
@[simp] theorem State.setCtr_seq (lo hi : Word) : (s.setCtr lo hi).seq = s.seq := rfl
@[simp] theorem State.setCtr_off (lo hi : Word) : (s.setCtr lo hi).off = s.off := rfl
@[simp] theorem State.setCtr_xorSent (lo hi : Word) : (s.setCtr lo hi).xorSent = s.xorSent := rfl
@[simp] theorem State.setCtr_draws (lo hi : Word) : (s.setCtr lo hi).draws = s.draws := rfl
@[simp] theorem State.setCtr_io (lo hi : Word) : (s.setCtr lo hi).io = s.io := rfl

@[simp] theorem State.setW_S (v : Words) : (s.setW v).S = s.S := rfl
@[simp] theorem State.setW_ctrLo (v : Words) : (s.setW v).ctrLo = s.ctrLo := rfl
@[simp] theorem State.setW_ctrHi (v : Words) : (s.setW v).ctrHi = s.ctrHi := rfl
@[simp] theorem State.setW_W (v : Words) : (s.setW v).W = v := rfl
@[simp] theorem State.setW_keyed (v : Words) : (s.setW v).keyed = s.keyed := rfl
@[simp] theorem State.setW_err (v : Words) : (s.setW v).err = s.err := rfl
@[simp] theorem State.setW_latch (v : Words) : (s.setW v).latch = s.latch := rfl
@[simp] theorem State.setW_seq (v : Words) : (s.setW v).seq = s.seq := rfl
@[simp] theorem State.setW_off (v : Words) : (s.setW v).off = s.off := rfl
@[simp] theorem State.setW_xorSent (v : Words) : (s.setW v).xorSent = s.xorSent := rfl
@[simp] theorem State.setW_draws (v : Words) : (s.setW v).draws = s.draws := rfl
@[simp] theorem State.setW_io (v : Words) : (s.setW v).io = s.io := rfl

@[simp] theorem State.setKeyed_S (b : Bool) : (s.setKeyed b).S = s.S := rfl
@[simp] theorem State.setKeyed_ctrLo (b : Bool) : (s.setKeyed b).ctrLo = s.ctrLo := rfl
@[simp] theorem State.setKeyed_ctrHi (b : Bool) : (s.setKeyed b).ctrHi = s.ctrHi := rfl
@[simp] theorem State.setKeyed_W (b : Bool) : (s.setKeyed b).W = s.W := rfl
@[simp] theorem State.setKeyed_keyed (b : Bool) : (s.setKeyed b).keyed = b := rfl
@[simp] theorem State.setKeyed_err (b : Bool) : (s.setKeyed b).err = s.err := rfl
@[simp] theorem State.setKeyed_latch (b : Bool) : (s.setKeyed b).latch = s.latch := rfl
@[simp] theorem State.setKeyed_seq (b : Bool) : (s.setKeyed b).seq = s.seq := rfl
@[simp] theorem State.setKeyed_off (b : Bool) : (s.setKeyed b).off = s.off := rfl
@[simp] theorem State.setKeyed_xorSent (b : Bool) : (s.setKeyed b).xorSent = s.xorSent := rfl
@[simp] theorem State.setKeyed_draws (b : Bool) : (s.setKeyed b).draws = s.draws := rfl
@[simp] theorem State.setKeyed_io (b : Bool) : (s.setKeyed b).io = s.io := rfl

@[simp] theorem State.setErr_S (e : BitVec 3) : (s.setErr e).S = s.S := rfl
@[simp] theorem State.setErr_ctrLo (e : BitVec 3) : (s.setErr e).ctrLo = s.ctrLo := rfl
@[simp] theorem State.setErr_ctrHi (e : BitVec 3) : (s.setErr e).ctrHi = s.ctrHi := rfl
@[simp] theorem State.setErr_W (e : BitVec 3) : (s.setErr e).W = s.W := rfl
@[simp] theorem State.setErr_keyed (e : BitVec 3) : (s.setErr e).keyed = s.keyed := rfl
@[simp] theorem State.setErr_err (e : BitVec 3) : (s.setErr e).err = e := rfl
@[simp] theorem State.setErr_latch (e : BitVec 3) : (s.setErr e).latch = s.latch := rfl
@[simp] theorem State.setErr_seq (e : BitVec 3) : (s.setErr e).seq = s.seq := rfl
@[simp] theorem State.setErr_off (e : BitVec 3) : (s.setErr e).off = s.off := rfl
@[simp] theorem State.setErr_xorSent (e : BitVec 3) : (s.setErr e).xorSent = s.xorSent := rfl
@[simp] theorem State.setErr_draws (e : BitVec 3) : (s.setErr e).draws = s.draws := rfl
@[simp] theorem State.setErr_io (e : BitVec 3) : (s.setErr e).io = s.io := rfl

@[simp] theorem State.setLatch_S (l : Latch) : (s.setLatch l).S = s.S := rfl
@[simp] theorem State.setLatch_ctrLo (l : Latch) : (s.setLatch l).ctrLo = s.ctrLo := rfl
@[simp] theorem State.setLatch_ctrHi (l : Latch) : (s.setLatch l).ctrHi = s.ctrHi := rfl
@[simp] theorem State.setLatch_W (l : Latch) : (s.setLatch l).W = s.W := rfl
@[simp] theorem State.setLatch_keyed (l : Latch) : (s.setLatch l).keyed = s.keyed := rfl
@[simp] theorem State.setLatch_err (l : Latch) : (s.setLatch l).err = s.err := rfl
@[simp] theorem State.setLatch_latch (l : Latch) : (s.setLatch l).latch = l := rfl
@[simp] theorem State.setLatch_seq (l : Latch) : (s.setLatch l).seq = s.seq := rfl
@[simp] theorem State.setLatch_off (l : Latch) : (s.setLatch l).off = s.off := rfl
@[simp] theorem State.setLatch_xorSent (l : Latch) : (s.setLatch l).xorSent = s.xorSent := rfl
@[simp] theorem State.setLatch_draws (l : Latch) : (s.setLatch l).draws = s.draws := rfl
@[simp] theorem State.setLatch_io (l : Latch) : (s.setLatch l).io = s.io := rfl

@[simp] theorem State.setSeq_S (q : Seq) : (s.setSeq q).S = s.S := rfl
@[simp] theorem State.setSeq_ctrLo (q : Seq) : (s.setSeq q).ctrLo = s.ctrLo := rfl
@[simp] theorem State.setSeq_ctrHi (q : Seq) : (s.setSeq q).ctrHi = s.ctrHi := rfl
@[simp] theorem State.setSeq_W (q : Seq) : (s.setSeq q).W = s.W := rfl
@[simp] theorem State.setSeq_keyed (q : Seq) : (s.setSeq q).keyed = s.keyed := rfl
@[simp] theorem State.setSeq_err (q : Seq) : (s.setSeq q).err = s.err := rfl
@[simp] theorem State.setSeq_latch (q : Seq) : (s.setSeq q).latch = s.latch := rfl
@[simp] theorem State.setSeq_seq (q : Seq) : (s.setSeq q).seq = q := rfl
@[simp] theorem State.setSeq_off (q : Seq) : (s.setSeq q).off = s.off := rfl
@[simp] theorem State.setSeq_xorSent (q : Seq) : (s.setSeq q).xorSent = s.xorSent := rfl
@[simp] theorem State.setSeq_draws (q : Seq) : (s.setSeq q).draws = s.draws := rfl
@[simp] theorem State.setSeq_io (q : Seq) : (s.setSeq q).io = s.io := rfl

@[simp] theorem State.setOff_S (o : BitVec 32) : (s.setOff o).S = s.S := rfl
@[simp] theorem State.setOff_ctrLo (o : BitVec 32) : (s.setOff o).ctrLo = s.ctrLo := rfl
@[simp] theorem State.setOff_ctrHi (o : BitVec 32) : (s.setOff o).ctrHi = s.ctrHi := rfl
@[simp] theorem State.setOff_W (o : BitVec 32) : (s.setOff o).W = s.W := rfl
@[simp] theorem State.setOff_keyed (o : BitVec 32) : (s.setOff o).keyed = s.keyed := rfl
@[simp] theorem State.setOff_err (o : BitVec 32) : (s.setOff o).err = s.err := rfl
@[simp] theorem State.setOff_latch (o : BitVec 32) : (s.setOff o).latch = s.latch := rfl
@[simp] theorem State.setOff_seq (o : BitVec 32) : (s.setOff o).seq = s.seq := rfl
@[simp] theorem State.setOff_off (o : BitVec 32) : (s.setOff o).off = o := rfl
@[simp] theorem State.setOff_xorSent (o : BitVec 32) : (s.setOff o).xorSent = s.xorSent := rfl
@[simp] theorem State.setOff_draws (o : BitVec 32) : (s.setOff o).draws = s.draws := rfl
@[simp] theorem State.setOff_io (o : BitVec 32) : (s.setOff o).io = s.io := rfl

@[simp] theorem State.setXorSent_S (b : Bool) : (s.setXorSent b).S = s.S := rfl
@[simp] theorem State.setXorSent_ctrLo (b : Bool) : (s.setXorSent b).ctrLo = s.ctrLo := rfl
@[simp] theorem State.setXorSent_ctrHi (b : Bool) : (s.setXorSent b).ctrHi = s.ctrHi := rfl
@[simp] theorem State.setXorSent_W (b : Bool) : (s.setXorSent b).W = s.W := rfl
@[simp] theorem State.setXorSent_keyed (b : Bool) : (s.setXorSent b).keyed = s.keyed := rfl
@[simp] theorem State.setXorSent_err (b : Bool) : (s.setXorSent b).err = s.err := rfl
@[simp] theorem State.setXorSent_latch (b : Bool) : (s.setXorSent b).latch = s.latch := rfl
@[simp] theorem State.setXorSent_seq (b : Bool) : (s.setXorSent b).seq = s.seq := rfl
@[simp] theorem State.setXorSent_off (b : Bool) : (s.setXorSent b).off = s.off := rfl
@[simp] theorem State.setXorSent_xorSent (b : Bool) : (s.setXorSent b).xorSent = b := rfl
@[simp] theorem State.setXorSent_draws (b : Bool) : (s.setXorSent b).draws = s.draws := rfl
@[simp] theorem State.setXorSent_io (b : Bool) : (s.setXorSent b).io = s.io := rfl

@[simp] theorem State.setIo_S (io : Io) : (s.setIo io).S = s.S := rfl
@[simp] theorem State.setIo_ctrLo (io : Io) : (s.setIo io).ctrLo = s.ctrLo := rfl
@[simp] theorem State.setIo_ctrHi (io : Io) : (s.setIo io).ctrHi = s.ctrHi := rfl
@[simp] theorem State.setIo_W (io : Io) : (s.setIo io).W = s.W := rfl
@[simp] theorem State.setIo_keyed (io : Io) : (s.setIo io).keyed = s.keyed := rfl
@[simp] theorem State.setIo_err (io : Io) : (s.setIo io).err = s.err := rfl
@[simp] theorem State.setIo_latch (io : Io) : (s.setIo io).latch = s.latch := rfl
@[simp] theorem State.setIo_seq (io : Io) : (s.setIo io).seq = s.seq := rfl
@[simp] theorem State.setIo_off (io : Io) : (s.setIo io).off = s.off := rfl
@[simp] theorem State.setIo_xorSent (io : Io) : (s.setIo io).xorSent = s.xorSent := rfl
@[simp] theorem State.setIo_draws (io : Io) : (s.setIo io).draws = s.draws := rfl
@[simp] theorem State.setIo_io (io : Io) : (s.setIo io).io = io := rfl

@[simp] theorem State.setDraws_S (n : Nat) : (s.setDraws n).S = s.S := rfl
@[simp] theorem State.setDraws_ctrLo (n : Nat) : (s.setDraws n).ctrLo = s.ctrLo := rfl
@[simp] theorem State.setDraws_ctrHi (n : Nat) : (s.setDraws n).ctrHi = s.ctrHi := rfl
@[simp] theorem State.setDraws_W (n : Nat) : (s.setDraws n).W = s.W := rfl
@[simp] theorem State.setDraws_keyed (n : Nat) : (s.setDraws n).keyed = s.keyed := rfl
@[simp] theorem State.setDraws_err (n : Nat) : (s.setDraws n).err = s.err := rfl
@[simp] theorem State.setDraws_latch (n : Nat) : (s.setDraws n).latch = s.latch := rfl
@[simp] theorem State.setDraws_seq (n : Nat) : (s.setDraws n).seq = s.seq := rfl
@[simp] theorem State.setDraws_off (n : Nat) : (s.setDraws n).off = s.off := rfl
@[simp] theorem State.setDraws_xorSent (n : Nat) : (s.setDraws n).xorSent = s.xorSent := rfl
@[simp] theorem State.setDraws_draws (n : Nat) : (s.setDraws n).draws = n := rfl
@[simp] theorem State.setDraws_io (n : Nat) : (s.setDraws n).io = s.io := rfl

end Sys2Proof.Machine
end

