-- ==== Sys2Proof/Laws/Ops.lean ====
section
/-! SUPPORT. One lemma per shared operation, to be cited instead of unfolding it. -/

namespace Sys2Proof.Machine

/-! ## Arrays of words -/

/-- Reading a word of an array after it was written. -/
@[simp] theorem words_set_self (a : Words) (t : Index) (v : Word) : (a.set t v)[t] = v := by
  simp [Fin.getElem_fin]

/-- Reading another word. -/
theorem words_set_other (a : Words) {t k : Index} (v : Word) (h : k ≠ t) : (a.set t v)[k] = a[k] := by
  have : (t : Nat) ≠ k := fun e => h (Fin.ext e.symm)
  simp [Fin.getElem_fin, this]

/-- Two arrays with the same sixteen words are equal. -/
theorem words_ext {a b : Words} (h : ∀ i : Index, a[i] = b[i]) : a = b :=
  Vector.ext fun i hi => h ⟨i, hi⟩

/-- UPD writes the word at t only. -/
theorem upd_other (a : Words) {t k : Index} (e : Word) (o : Offsets) (h : k ≠ t) : (upd a t e o)[k] = a[k] := by
  simp only [upd]
  rw [words_set_other _ _ h, words_set_other _ _ h]

/-- Folding a nonce word in writes the word at i only. -/
theorem foldNonceWord_other (w : Words) (n : Word) {i k : Index} (h : k ≠ i) : (foldNonceWord w n i)[k] = w[k] :=
  words_set_other _ _ h

/-- The word KS_NONCE writes. -/
theorem foldNonceWord_self (w : Words) (n : Word) (i : Index) :
    (foldNonceWord w n i)[i] = w[i] ^^^ T (n + indexWord i) := words_set_self _ _ _

/-- Injecting the counter writes the word at i only. -/
theorem injectWord_other (w : Words) (lo hi : Word) {i k : Index} (h : k ≠ i) :
    (injectWord w lo hi i)[k] = w[k] := by
  simp only [injectWord]
  rw [words_set_other _ _ h, words_set_other _ _ h]

/-- The word BLK_INJECT writes. -/
theorem injectWord_self (w : Words) (lo hi : Word) (i : Index) :
    (injectWord w lo hi i)[i] = w[i] ^^^ T (lo + indexWord i) ^^^ T (hi + indexWord i) := by
  simp only [injectWord, words_set_self]

/-- T and Mix map zero to zero. -/
@[simp] theorem T_zero : T 0#32 = 0#32 := by decide

@[simp] theorem Mix_zero : Mix 0#32 0#32 0#32 = 0#32 := by decide

/-! ## Lengths -/

@[simp] theorem keystreamBytes_length (w : Words) : (keystreamBytes w).length = 64 := by
  simp [keystreamBytes]

/-- No more output bytes than input bytes, nor than a block has. -/
@[simp] theorem xorBytes_length (d : List Byte) (w : Words) : (xorBytes d w).length = min d.length 64 := by
  simp [xorBytes]

/-- A block has at most 64 bytes. -/
theorem blockLen_le (s : State) : s.blockLen ≤ 64 := Nat.min_le_right _ _

/-- The two INIT errors and nothing else. -/
theorem initErrors_le (klen nlen : Nat) : (initErrors klen nlen).toNat ≤ 3 := by
  unfold initErrors
  split <;> split <;> decide

/-- INIT's preconditions hold exactly when no error bit is set. -/
theorem initErrors_eq_zero (klen nlen : Nat) : initErrors klen nlen = 0#3 ↔ klen ≠ 0 ∧ nlen = 16 := by
  unfold initErrors Config.nonceBytes
  by_cases hk : klen = 0 <;> by_cases hn : nlen = 16 <;> simp [hk, hn, errKeyEmpty, errNonceLen]

/-! ## Sequencer -/

/-- IDLE has no micro-operation. -/
@[simp] theorem microOp_idle : microOp .idle = none := by decide

/-- The phase of a code is the phase that has this code. -/
theorem phaseOfCode_code (ph : Phase) : phaseOfCode ph.code.toNat = some ph := by
  cases ph <;> rfl

/-- An engine with a micro-operation to run is busy, and the other way round. -/
theorem microOp_isSome (s : State) : (microOp s.seq.ph).isSome = s.busy := by
  unfold State.busy
  cases s.seq.ph <;> rfl

/-! ## Beginning and end of a command -/

/-- Acceptance answers next exactly when the engine is not busy. -/
theorem acceptCommand_next {s t : State} {start : State → State} :
    acceptCommand s start = .next t ↔ s.busy = false ∧ start s = t := by
  unfold acceptCommand
  cases s.busy <;> simp

/-- What the end of a command leaves: W, OFF and the latches take free values, everything else stays. -/
theorem discardTransients_eq (s : State) :
    discardTransients s =
      { s with
        W := freeWords s.draws, off := Config.freeOff s.draws, latch := freeLatch s.draws
        draws := s.draws + 1 } := rfl

/-- What W, OFF and the latches hold then does not depend on what they held, key and nonce included (R34, R120). -/
theorem discardTransients_forgets {s u : State} (h : s.draws = u.draws) :
    (discardTransients s).W = (discardTransients u).W ∧ (discardTransients s).off = (discardTransients u).off ∧
      (discardTransients s).latch = (discardTransients u).latch := by
  simp [discardTransients_eq, h]

/-- Completion writes ERR and SEQ, and W, OFF and the latches take free values; nothing else changes. -/
theorem complete_eq (s : State) :
    complete s =
      { s with
        W := freeWords s.draws, off := Config.freeOff s.draws, err := 0#3, latch := freeLatch s.draws, seq := Seq.idle
        draws := s.draws + 1 } := rfl

@[simp] theorem complete_S (s : State) : (complete s).S = s.S := rfl
@[simp] theorem complete_ctrLo (s : State) : (complete s).ctrLo = s.ctrLo := rfl
@[simp] theorem complete_ctrHi (s : State) : (complete s).ctrHi = s.ctrHi := rfl
@[simp] theorem complete_W (s : State) : (complete s).W = freeWords s.draws := rfl
@[simp] theorem complete_keyed (s : State) : (complete s).keyed = s.keyed := rfl
@[simp] theorem complete_err (s : State) : (complete s).err = 0#3 := rfl
@[simp] theorem complete_latch (s : State) : (complete s).latch = freeLatch s.draws := rfl
@[simp] theorem complete_seq (s : State) : (complete s).seq = Seq.idle := rfl
@[simp] theorem complete_off (s : State) : (complete s).off = Config.freeOff s.draws := rfl
@[simp] theorem complete_xorSent (s : State) : (complete s).xorSent = s.xorSent := rfl
@[simp] theorem complete_draws (s : State) : (complete s).draws = s.draws + 1 := rfl
@[simp] theorem complete_io (s : State) : (complete s).io = s.io := rfl

/-- An error changes ERR and SEQ, and W, OFF and the latches take free values; nothing else changes. -/
theorem raiseErr_eq (e : BitVec 3) (s : State) :
    raiseErr e s =
      { s with
        W := freeWords s.draws, off := Config.freeOff s.draws, err := e, latch := freeLatch s.draws, seq := Seq.idle
        draws := s.draws + 1 } := rfl

/-- The end of RESET writes ERR and SEQ, nothing else. -/
theorem endCommand_eq (e : BitVec 3) (s : State) : endCommand e s = { s with err := e, seq := Seq.idle } := rfl

/-- Taking the operands changes KEYBUF, NW and DIN, nothing else. -/
theorem takeOperands_frame (s : State) :
    takeOperands s =
      { s with
        latch := { s.latch with keybuf := (takeOperands s).latch.keybuf, nw := (takeOperands s).latch.nw }
        io := { s.io with din := s.io.din.drop s.operandLen } } := by
  simp only [takeOperands, State.setLatch, State.setIo]

/-! ## Streams -/

/-- BLK_XOR's end: the host takes what is pending if it is taking; then either nothing is pending and the counter
increment follows, or the engine waits. -/
theorem leaveXor_cases (s : State) :
    (∃ u, u = hostTakesIfTaking s ∧ u.io.dout = [] ∧
      leaveXor s = { u with xorSent := false, seq := ⟨.blkCtrinc, 0, 0⟩ }) ∨
    (∃ u, u = hostTakesIfTaking s ∧ u.io.dout ≠ [] ∧ leaveXor s = { u with xorSent := true }) := by
  by_cases h : (hostTakesIfTaking s).io.dout = []
  · exact .inl ⟨_, rfl, h, by simp [leaveXor, h, State.setXorSent, State.setSeq]⟩
  · exact .inr ⟨_, rfl, h, by simp [leaveXor, h, State.setXorSent]⟩

/-- The host's taking touches DOUT and what it has taken, nothing else, and loses no byte. -/
theorem hostTakesIfTaking_frame (s : State) :
    hostTakesIfTaking s =
        { s with
          io := { s.io with
            dout := (hostTakesIfTaking s).io.dout, taken := (hostTakesIfTaking s).io.taken } } ∧
      (hostTakesIfTaking s).io.taken ++ (hostTakesIfTaking s).io.dout = s.io.taken ++ s.io.dout ∧
      (s.io.taking = true → (hostTakesIfTaking s).io.dout = []) ∧
      (s.io.taking = false → hostTakesIfTaking s = s) := by
  unfold hostTakesIfTaking
  cases s.io.taking <;> simp [hostTakes, State.setIo]

/-- What the reset input leaves (R36, R190). -/
theorem hardwareReset_eq (s : State) :
    hardwareReset s = { State.reset with draws := s.draws, io := { s.io with din := [], dout := [] } } := rfl

end Sys2Proof.Machine
end

