-- ==== Sys2Proof/Laws/PerInstr.lean ====
section
/-! SUPPORT. A statement about every instruction, one lemma per constructor: its encoding lies in its own row of
`spec/opcode_table.json` (the row's match and mask, R72 to R74; its phase code, R80). -/

namespace Sys2Proof.Laws.TableRow

/-- The encoding of `i` matches `i`'s row of the table. -/
def Statement : Instr → Prop
  | .init n k => ∃ cw, encode (.init n k) = .cmd64 cw ∧
      matchesRow 0x0100000000000000#64 0xFF00FFFF00000000#64 cw = true
  | .process n => ∃ cw, encode (.process n) = .cmd64 cw ∧
      matchesRow 0x0200000000000000#64 0xFFFFFFFF00000000#64 cw = true
  | .reset => ∃ cw, encode .reset = .cmd64 cw ∧
      matchesRow 0x0300000000000000#64 0xFFFFFFFFFFFFFFFF#64 cw = true
  | .ksCheck => encode .ksCheck = .ph4 0b0001#4
  | .ksPack => encode .ksPack = .ph4 0b0010#4
  | .ksNonce => encode .ksNonce = .ph4 0b0011#4
  | .ksDiffuse => encode .ksDiffuse = .ph4 0b0100#4
  | .ksCommit => encode .ksCommit = .ph4 0b0101#4
  | .blkLoad => encode .blkLoad = .ph4 0b0110#4
  | .blkInject => encode .blkInject = .ph4 0b0111#4
  | .blkCol => encode .blkCol = .ph4 0b1000#4
  | .blkDiag => encode .blkDiag = .ph4 0b1001#4
  | .blkXor => encode .blkXor = .ph4 0b1010#4
  | .blkCtrinc => encode .blkCtrinc = .ph4 0b1011#4
  | .blkRatchet => encode .blkRatchet = .ph4 0b1100#4
  | .blkNext => encode .blkNext = .ph4 0b1101#4
  | .rstClear => encode .rstClear = .ph4 0b1110#4

/-- Fields below the mask do not disturb a row's match. -/
theorem commandWord_match_init (n : BitVec 8) (k : BitVec 32) :
    commandWord 0x01#8 n 0#16 k &&& 0xFF00FFFF00000000#64 = 0x0100000000000000#64 := by
  unfold commandWord
  ext i hi
  simp only [BitVec.getElem_and, BitVec.getElem_append]
  interval_cases i <;> simp

theorem commandWord_match_process (k : BitVec 32) :
    commandWord 0x02#8 0#8 0#16 k &&& 0xFFFFFFFF00000000#64 = 0x0200000000000000#64 := by
  unfold commandWord
  ext i hi
  simp only [BitVec.getElem_and, BitVec.getElem_append]
  interval_cases i <;> simp

theorem init (n k : Nat) : Statement (.init n k) :=
  ⟨_, rfl, by simp only [matchesRow, commandWord_match_init, beq_self_eq_true]⟩
theorem process (n : Nat) : Statement (.process n) :=
  ⟨_, rfl, by simp only [matchesRow, commandWord_match_process, beq_self_eq_true]⟩
theorem reset : Statement .reset := ⟨_, rfl, by decide⟩
theorem ksCheck : Statement .ksCheck := rfl
theorem ksPack : Statement .ksPack := rfl
theorem ksNonce : Statement .ksNonce := rfl
theorem ksDiffuse : Statement .ksDiffuse := rfl
theorem ksCommit : Statement .ksCommit := rfl
theorem blkLoad : Statement .blkLoad := rfl
theorem blkInject : Statement .blkInject := rfl
theorem blkCol : Statement .blkCol := rfl
theorem blkDiag : Statement .blkDiag := rfl
theorem blkXor : Statement .blkXor := rfl
theorem blkCtrinc : Statement .blkCtrinc := rfl
theorem blkRatchet : Statement .blkRatchet := rfl
theorem blkNext : Statement .blkNext := rfl
theorem rstClear : Statement .rstClear := rfl

end Sys2Proof.Laws.TableRow
end

