-- ==== Sys2Proof/Laws/Step.lean ====
section
/-! SUPPORT. What a step can do, said once, and runs of steps. -/

namespace Sys2Proof.Machine

/-- One step: the reset input, a micro-operation, a wait, an accepted command or an illegal word. -/
theorem step_cases {s t : State} (h : step s = .next t) :
    (s.io.rst = true ∧ t = hardwareReset s) ∨
    (s.io.rst = false ∧ ∃ i, microOp s.seq.ph = some i ∧ exec i s = .next t) ∨
    (s.io.rst = false ∧ s.seq.ph = .idle ∧ s.io.cmd = [] ∧ t = s) ∨
    (s.io.rst = false ∧ s.seq.ph = .idle ∧ ∃ cw rest i, s.io.cmd = cw :: rest ∧ decode (.cmd64 cw) = .ok i ∧
      exec i (takeCommand rest s) = .next t) ∨
    (s.io.rst = false ∧ s.seq.ph = .idle ∧ ∃ cw rest r, s.io.cmd = cw :: rest ∧ decode (.cmd64 cw) = .error r ∧
      t = illegalCommand (takeCommand rest s)) := by
  unfold step at h
  split at h
  · exact .inl ⟨‹_›, by simpa using h.symm⟩
  · have hr : s.io.rst = false := by simpa using ‹¬ s.io.rst = true›
    split at h
    · exact .inr (.inl ⟨hr, _, ‹_›, h⟩)
    · rename_i hm
      have hi : s.seq.ph = .idle := by
        revert hm
        cases s.seq.ph <;> simp [microOp, decode, decodePhase, Phase.code, Except.toOption]
      split at h
      · exact .inr (.inr (.inl ⟨hr, hi, ‹_›, by simpa using h.symm⟩))
      · split at h
        · exact .inr (.inr (.inr (.inl ⟨hr, hi, _, _, _, ‹_›, ‹_›, h⟩)))
        · exact .inr (.inr (.inr (.inr ⟨hr, hi, _, _, _, ‹_›, ‹_›, by simpa using h.symm⟩)))

/-- A command word decodes to one of the three commands. -/
theorem decodeCommand_cases {cw : BitVec 64} {i : Instr} (h : decode (.cmd64 cw) = .ok i) :
    i = .init (cwNlen cw).toNat (cwArg cw).toNat ∨ i = .process (cwArg cw).toNat ∨ i = .reset := by
  simp only [decode, decodeCommand] at h
  split at h
  · exact .inl (by simpa using h.symm)
  · split at h
    · exact .inr (.inl (by simpa using h.symm))
    · split at h
      · exact .inr (.inr (by simpa using h.symm))
      · simp at h

@[simp] theorem runs_zero (s : State) : runs 0 s = .next s := rfl

/-- A run is its first step and then the rest. -/
theorem runs_succ {s t : State} (k : Nat) (h : step s = .next t) : runs (k + 1) s = runs k t := by
  simp only [runs, h]

/-- `runs` is the host's own run of this machine. -/
theorem runs_eq_core_run (k : Nat) (s : State) : runs k s = Sys2Proof.core.run k s := by
  induction k generalizing s with
  | zero => rfl
  | succ k ih =>
    cases hstep : step s with
    | next t =>
      have h' : Sys2Proof.core.step s = .next t := hstep
      simp only [runs, hstep, Host.Core.run, h']
      exact ih t
    | fault r => cases r
    | refused r =>
      have h' : Sys2Proof.core.step s = .refused r := hstep
      simp only [runs, hstep, Host.Core.run, h']
      rfl

/-- A run of j + k steps is a run of j and then one of k. -/
theorem runs_add {s t : State} (j k : Nat) (h : runs j s = .next t) : runs (j + k) s = runs k t := by
  induction j generalizing s with
  | zero =>
    have hs : s = t := by simpa using h
    rw [Nat.zero_add, hs]
  | succ j ih =>
    cases hstep : step s with
    | next u =>
      rw [runs_succ j hstep] at h
      rw [show j + 1 + k = (j + k) + 1 by omega, runs_succ _ hstep]
      exact ih h
    | fault r => cases r
    | refused r => simp [runs, hstep] at h

/-- A state a step leaves as it is stays as it is. -/
theorem runs_of_fixed {s : State} (h : step s = .next s) (k : Nat) : runs k s = .next s := by
  induction k with
  | zero => rfl
  | succ k ih => rw [runs_succ k h, ih]

end Sys2Proof.Machine
end

