-- ==== Sys2Proof/Laws/Streams.lean ====
section
/-! SUPPORT. The exclusive-or of bytes with a keystream. -/

namespace Sys2Proof.Machine

/-- A list of bytes exclusive-ored with another, and then once more, is the list itself where the other is as long. -/
theorem zipWith_xor_cancel : ∀ (d k : List Byte), d.length ≤ k.length →
    List.zipWith (· ^^^ ·) (List.zipWith (· ^^^ ·) d k) k = d
  | [], _, _ => by simp
  | d :: ds, k :: ks, h => by
    have := zipWith_xor_cancel ds ks (by simpa using h)
    simp [this]
  | _ :: _, [], h => by simp at h

/-- The exclusive-or with one keystream block undoes itself (R145). -/
theorem xorBytes_xorBytes (d : List Byte) (w : Words) (h : d.length ≤ 64) :
    xorBytes (xorBytes d w) w = d :=
  zipWith_xor_cancel d _ (by simpa using h)

/-- The state after some blocks depends on their number only (R131, R147). -/
theorem processBlocks_state (b : Nat) (x y : List Byte) (a : Arch) :
    (processBlocks b x a).1 = (processBlocks b y a).1 := by
  induction b generalizing x y a with
  | zero => rfl
  | succ b ih => exact ih _ _ _

end Sys2Proof.Machine
end

