-- ==== Sys2Proof/Tests/Slice0.lean ====
section
/-! SUPPORT. Tests against the spec's own words, tables and worked examples, and a witness for every statement that has
hypotheses. Expected values come from `95_test_vectors.md` and the worked examples of the rules, never from the model. -/

namespace Sys2Proof.Tests

open Sys2Proof Sys2Proof.Machine

/-! ## Well-formedness: a term each check refuses (R77) -/

theorem test_wf_nlen_too_wide : (Instr.init 256 8).wellFormed = false := by decide
theorem test_wf_klen_too_wide : (Instr.init 16 (2 ^ 32)).wellFormed = false := by decide
theorem test_wf_len_too_wide : (Instr.process (2 ^ 32)).wellFormed = false := by decide
theorem test_wf_widest_fields : (Instr.init 255 (2 ^ 32 - 1)).wellFormed = true := by decide

/-! ## Decode: every constructor, from words written out from R71 to R74 and R80; `95_test_vectors.md` 2.9 -/

theorem test_decode_init :
    decode (.cmd64 (0b00000001#8 ++ 0b00010000#8 ++ 0#16 ++ 0x00000008#32)) = .ok (.init 16 8) := by decide
theorem test_decode_init_fields : decode (.cmd64 0x010C000000000000#64) = .ok (.init 12 0) := by decide
theorem test_decode_process :
    decode (.cmd64 (0b00000010#8 ++ 0#8 ++ 0#16 ++ 0x00000040#32)) = .ok (.process 64) := by decide
theorem test_decode_process_widest : decode (.cmd64 0x02000000FFFFFFFF#64) = .ok (.process 4294967295) := by decide
theorem test_decode_reset : decode (.cmd64 (0b00000011#8 ++ 0#8 ++ 0#16 ++ 0#32)) = .ok .reset := by decide
theorem test_decode_ksCheck : decode (.ph4 0b0001#4) = .ok .ksCheck := by decide
theorem test_decode_ksPack : decode (.ph4 0b0010#4) = .ok .ksPack := by decide
theorem test_decode_ksNonce : decode (.ph4 0b0011#4) = .ok .ksNonce := by decide
theorem test_decode_ksDiffuse : decode (.ph4 0b0100#4) = .ok .ksDiffuse := by decide
theorem test_decode_ksCommit : decode (.ph4 0b0101#4) = .ok .ksCommit := by decide
theorem test_decode_blkLoad : decode (.ph4 0b0110#4) = .ok .blkLoad := by decide
theorem test_decode_blkInject : decode (.ph4 0b0111#4) = .ok .blkInject := by decide
theorem test_decode_blkCol : decode (.ph4 0b1000#4) = .ok .blkCol := by decide
theorem test_decode_blkDiag : decode (.ph4 0b1001#4) = .ok .blkDiag := by decide
theorem test_decode_blkXor : decode (.ph4 0b1010#4) = .ok .blkXor := by decide
theorem test_decode_blkCtrinc : decode (.ph4 0b1011#4) = .ok .blkCtrinc := by decide
theorem test_decode_blkRatchet : decode (.ph4 0b1100#4) = .ok .blkRatchet := by decide
theorem test_decode_blkNext : decode (.ph4 0b1101#4) = .ok .blkNext := by decide
theorem test_decode_rstClear : decode (.ph4 0b1110#4) = .ok .rstClear := by decide
theorem test_decode_idle_code : decode (.ph4 0b0000#4) = .error .idleCode := by decide
theorem test_decode_unused_code : decode (.ph4 0b1111#4) = .error .unusedCode := by decide
theorem test_decode_zero_word : decode (.cmd64 0#64) = .error .opcode := by decide
theorem test_decode_ones_word : decode (.cmd64 0xFFFFFFFFFFFFFFFF#64) = .error .opcode := by decide
theorem test_decode_opcode_4 : decode (.cmd64 0x0400000000000000#64) = .error .opcode := by decide
theorem test_decode_init_reserved : decode (.cmd64 0x0110000100000008#64) = .error .initReserved := by decide
theorem test_decode_process_nlen : decode (.cmd64 0x0210000000000040#64) = .error .processUpper := by decide
theorem test_decode_process_reserved : decode (.cmd64 0x0200000100000040#64) = .error .processUpper := by decide
theorem test_decode_reset_arg : decode (.cmd64 0x0300000000000001#64) = .error .resetOperand := by decide
theorem test_table_word_command : decodeTableWord 64 0x0110000000000008 = some (.init 16 8) := by decide
theorem test_table_word_phase : decodeTableWord 8 0b1001 = some .blkDiag := by decide

/-! ## The datapath functions: `95_test_vectors.md` 2.1 to 2.3 -/

theorem test_rotl : rotl 0xDEADBEEF#32 15 = 0xDF77EF56#32 := by decide
theorem test_rotr : rotr 0x12345678#32 7 = 0xF02468AC#32 := by decide
theorem test_rot_zero : rotl 0x12345678#32 0 = 0x12345678#32 ∧ rotr 0x12345678#32 0 = 0x12345678#32 := by decide
theorem test_T_one : T 0x00000001#32 = 0x765D89B6#32 := by decide
theorem test_T_ones : T 0xFFFFFFFF#32 = 0x6F306A12#32 := by decide
theorem test_T_collision : T 0x2265B1F5#32 = 0x6DA4A1B6#32 ∧ T 0x34871829#32 = 0x6DA4A1B6#32 := by decide
theorem test_K_inverse : Config.k * 0x855BA88F#32 = 1#32 := by decide
theorem test_Mix_100 : Mix 1#32 0#32 0#32 = 0x9CBDD861#32 := by decide
theorem test_Mix_010 : Mix 0#32 1#32 0#32 = 0x50EC31FF#32 := by decide
theorem test_Mix_001 : Mix 0#32 0#32 1#32 = 0xB36DCC1D#32 := by decide

/-- The array A[k] = k × 01010101 of section 2.3. -/
def ramp : Words := Vector.ofFn fun k : Index => BitVec.ofNat 32 (k.val * 0x01010101)

theorem test_upd_first : (upd ramp 0 0#32 ⟨1, 7, 13⟩)[0] = 0x8FA4D2F5#32 := by decide
theorem test_upd_diagonal : (upd ramp 5 0#32 ⟨3, 9, 14⟩)[5] = 0x77CB8716#32 := by decide
theorem test_upd_wraps : (upd ramp 15 0xFFFFFFFF#32 ⟨1, 7, 13⟩)[15] = 0x9377186C#32 := by decide

/-! ## One step of each instruction -/

/-- The reset state at a position of the sequencer. -/
def at_ (ph : Phase) (r : Fin 20) (i : Index) : State := State.reset.setSeq ⟨ph, r, i⟩

/-- A value of the state after a step that answers next. -/
def after {α : Type} (s : State) (f : State → α) : Option α :=
  match step s with
  | .next t => some (f t)
  | .fault _ => none
  | .refused _ => none

/-- "TESTKEY1" (R110). -/
def key : List Byte := [0x54#8, 0x45#8, 0x53#8, 0x54#8, 0x4B#8, 0x45#8, 0x59#8, 0x31#8]

/-- The nonce 00 01 … 0F (R110). -/
def nonce : List Byte := (List.range 16).map (BitVec.ofNat 8)

/-- The latches an INIT of `key` and `nonce` has after KS_CHECK. -/
def keyLatch : Latch :=
  { Latch.reset with
    op := .init
    klen := 8#32
    nlen := 16#8
    keybuf := storeKey Latch.reset.keybuf key
    nw := nonceWords nonce }

/-- W after KS_NONCE (section 2.4). -/
def wNonce : Words :=
  #v[0x6EAB86D1#32, 0x5C526872#32, 0x8E0D7185#32, 0xAEC97D1F#32, 0x359417A7#32, 0xDFB4CCD1#32, 0x263C9330#32,
    0x6FA1ED0C#32, 0x0F05AE4D#32, 0x5DD95555#32, 0xBCE9D8BE#32, 0x8F3C30AB#32, 0x75A95718#32, 0x4A4E3DF4#32,
    0x1F073031#32, 0xE7BDFACE#32]

/-- S after INIT (section 2.4). -/
def sInit : Words :=
  #v[0x7132328F#32, 0x7974E4F1#32, 0x8F06DDC1#32, 0xB436A291#32, 0x60642130#32, 0x7C7A74B8#32, 0xC77DFBFE#32,
    0xB8C018D6#32, 0x1BD19FC2#32, 0xC721B7A8#32, 0x29FB79FE#32, 0xBC0F2D72#32, 0x75EBF614#32, 0x0C19FA60#32,
    0x69A680F9#32, 0x2031D2CE#32]

/-- W after the column pass of round 0 of the first block (section 2.4). -/
def wColumn : Words :=
  #v[0xA3035F27#32, 0x238F4F94#32, 0x931768D1#32, 0x79254ABE#32, 0x43FE3253#32, 0x2E9896A8#32, 0x824CF094#32,
    0x499964FD#32, 0x27B5BB5C#32, 0x3C5217A1#32, 0xEF62DB59#32, 0xDC39912C#32, 0x10229523#32, 0xC8795829#32,
    0xEF04B37D#32, 0x7B37D5C7#32]

/-- The first keystream block (section 2.4). -/
def wBlock : Words :=
  #v[0x33964D34#32, 0xBAFF1564#32, 0xAFA4E2B3#32, 0x9A47F535#32, 0xB148004C#32, 0xDE051603#32, 0xD195A776#32,
    0xEFE9AC35#32, 0x3CF52C78#32, 0x1F727C91#32, 0xFD9A316D#32, 0xC6A303D9#32, 0x7E244C35#32, 0x0862C5F0#32,
    0xDA7F648C#32, 0x5A304A7F#32]

/-- The reset state with a word at the port. -/
def presenting (cw : BitVec 64) : State := State.reset.setIo { Io.reset with cmd := [cw] }

/-- The reset state with bytes on DIN, at a position of the sequencer, with lengths latched. -/
def supplied (ph : Phase) (din : List Byte) (klen : BitVec 32) (nlen : BitVec 8) (len : BitVec 32) : State :=
  ((at_ ph 0 0).setIo { Io.reset with din := din }).setLatch { Latch.reset with klen := klen, nlen := nlen, len := len }

theorem test_step_init :
    after (presenting 0x0110000000000008#64) (fun t => (t.seq, t.latch.klen, t.latch.nlen, t.status)) =
      some (⟨.ksCheck, 0, 0⟩, 8#32, 16#8, 0x01#8) := by decide
theorem test_step_process :
    after (presenting 0x0200000000000040#64) (fun t => (t.seq, t.latch.len, t.off, t.status)) =
      some (⟨.blkLoad, 0, 0⟩, 64#32, 0#32, 0x01#8) := by decide
theorem test_step_process_empty :
    after ((presenting 0x0200000000000000#64).setErr 3#3) (fun t => (t.seq, t.err)) = some (Seq.idle, 0#3) := by decide
theorem test_step_reset :
    after (presenting 0x0300000000000000#64) (fun t => (t.seq, t.status)) = some (⟨.rstClear, 0, 0⟩, 0x01#8) := by decide
theorem test_step_illegal :
    after ((presenting 0#64).setKeyed true) (fun t => (t.err, t.status, t.io.cmd)) = some (0b100#3, 0x42#8, []) := by
  decide
theorem test_step_ksCheck_fails :
    after (supplied .ksCheck (List.replicate 13 7#8) 0#32 12#8 0#32) (fun t => (t.err, t.io.din, t.seq)) =
      some (0b011#3, [7#8], Seq.idle) := by decide
theorem test_step_ksCheck_passes :
    after (supplied .ksCheck (key ++ nonce) 8#32 16#8 0#32)
      (fun t => (t.latch.keybuf[7], t.latch.nw[1], t.io.din.length, t.seq)) =
      some (0x31#8, 0x04050607#32, 0, ⟨.ksPack, 0, 0⟩) := by decide
theorem test_step_ksPack_wraps :
    after ((at_ .ksPack 0 15).setLatch keyLatch) (fun t => (t.W[15], t.seq)) =
      some (0x31544553#32, ⟨.ksNonce, 0, 0⟩) := by decide
theorem test_step_ksNonce :
    after (((at_ .ksNonce 0 0).setLatch keyLatch).setW (zeroWords.set 0 0x54455354#32)) (fun t => t.W[0]) =
      some 0xB681FA87#32 := by decide
theorem test_step_ksNonce_last :
    after ((at_ .ksNonce 3 15).setLatch keyLatch) (fun t => t.seq) = some ⟨.ksDiffuse, 0, 0⟩ := by decide
theorem test_step_ksDiffuse :
    after ((at_ .ksDiffuse 0 0).setW wNonce) (fun t => (t.W[0], t.seq)) =
      some (0xAA910AFE#32, ⟨.ksDiffuse, 0, 1⟩) := by decide
theorem test_step_ksDiffuse_last :
    after (at_ .ksDiffuse 19 15) (fun t => t.seq) = some ⟨.ksCommit, 0, 0⟩ := by decide
theorem test_step_ksCommit :
    after ((at_ .ksCommit 0 0).setW sInit) (fun t => (t.S[0], t.S[15], t.status)) =
      some (0x7132328F#32, 0x2031D2CE#32, 0x02#8) := by decide
/-- R120: "The key and nonce are not retained after KS_COMMIT". -/
theorem test_step_ksCommit_retains_no_key :
    after ((at_ .ksCommit 0 0).setLatch keyLatch) (fun t => t.latch) = after (at_ .ksCommit 0 0) (fun t => t.latch) := rfl
theorem test_step_blkLoad :
    after ((at_ .blkLoad 0 0).setS sInit) (fun t => (t.W[0], t.W[15])) =
      some (0x7132328F#32, 0x2031D2CE#32) := by decide
theorem test_step_blkInject :
    after (((at_ .blkInject 0 0).setW (zeroWords.set 0 0x906E9E00#32)).setCtr 1#32 0#32) (fun t => t.W[0]) =
      some 0xE63317B6#32 := by decide
theorem test_step_blkInject_wraps :
    after (((at_ .blkInject 0 15).setW sInit).setCtr 0xFFFFFFF8#32 0#32) (fun t => t.W[15]) =
      some 0x3B04045F#32 := by decide
theorem test_step_blkCol :
    after ((at_ .blkCol 0 0).setW sInit) (fun t => (t.W[0], t.seq)) =
      some (0xA3035F27#32, ⟨.blkCol, 0, 1⟩) := by decide
theorem test_step_blkCol_last :
    after (at_ .blkCol 7 15) (fun t => t.seq) = some ⟨.blkDiag, 7, 0⟩ := by decide
theorem test_step_blkDiag_first :
    after ((at_ .blkDiag 0 0).setW wColumn) (fun t => t.W[0]) = some 0xDB34DE1E#32 := by decide
theorem test_step_blkDiag_second :
    after ((at_ .blkDiag 0 1).setW (wColumn.set 0 0xDB34DE1E#32)) (fun t => t.W[5]) = some 0x6D819D65#32 := by decide
theorem test_step_blkXor_partial :
    after ((supplied .blkXor [0xAA#8, 1#8] 0#32 0#8 1#32).setW wBlock) (fun t => (t.output, t.io.din, t.seq)) =
      some ([0x9E#8], [1#8], ⟨.blkCtrinc, 0, 0⟩) := by decide
theorem test_step_blkXor_order :
    after ((supplied .blkXor (List.replicate 8 0#8) 0#32 0#8 8#32).setW wBlock) (fun t => t.output) =
      some [0x34#8, 0x4D#8, 0x96#8, 0x33#8, 0x64#8, 0x15#8, 0xFF#8, 0xBA#8] := by decide
theorem test_step_blkCtrinc_carry :
    after ((at_ .blkCtrinc 0 0).setCtr 0xFFFFFFFF#32 0#32) (fun t => (t.ctrLo, t.ctrHi)) = some (0#32, 1#32) := by decide
theorem test_step_blkCtrinc_wraps :
    after ((at_ .blkCtrinc 0 0).setCtr 0xFFFFFFFF#32 0xFFFFFFFF#32) (fun t => (t.ctrLo, t.ctrHi)) =
      some (0#32, 0#32) := by decide
theorem test_step_blkRatchet :
    after (((at_ .blkRatchet 0 0).setS sInit).setW wBlock) (fun t => t.S[0]) = some 0x906E9E00#32 := by decide
theorem test_step_blkNext_loops :
    after (supplied .blkNext [] 0#32 0#8 65#32) (fun t => (t.off, t.seq)) = some (64#32, ⟨.blkLoad, 0, 0⟩) := by decide
theorem test_step_blkNext_ends :
    after (supplied .blkNext [] 0#32 0#8 64#32) (fun t => (t.off, t.seq)) = some (64#32, Seq.idle) := by decide
theorem test_step_rstClear :
    after ((((at_ .rstClear 0 0).setS sInit).setCtr 1#32 0#32).setKeyed true) (fun t => (t.S, t.ctrLo, t.status)) =
      some (zeroWords, 0#32, 0#8) := by decide
theorem test_step_fetch_word_command :
    after (State.reset.withFetchWord 64 0x0300000000000000) (fun t => t.seq) = some ⟨.rstClear, 0, 0⟩ := by decide
theorem test_step_fetch_word_phase :
    after (State.reset.withFetchWord 8 0x6) (fun t => t.seq) = some ⟨.blkInject, 0, 0⟩ := by decide

/-! ## The command level: `95_test_vectors.md` 2.4, 2.7, 2.8 -/

theorem test_command_init :
    let a := initCommand key nonce State.reset.arch
    a.S = sInit ∧ a.ctrLo = 0#32 ∧ a.keyed = true := by decide +kernel
theorem test_command_first_block :
    keystreamBlock { State.reset.arch with S := sInit } = wBlock := by decide +kernel
theorem test_command_zero_state_second_block :
    (processCommand (List.replicate 68 0#8) State.reset.arch).2.drop 64 = [0x9A#8, 0xFE#8, 0x51#8, 0xA2#8] := by
  decide +kernel

/-! ## Witnesses: hypotheses met together, one theorem for each statement that has some -/

theorem witness_DecodeOfEncode : (Instr.init 255 (2 ^ 32 - 1)).wellFormed = true := by decide

theorem witness_EncodeOfDecode :
    decode (.cmd64 0x01FF0000FFFFFFFF#64) = .ok (.init 255 (2 ^ 32 - 1)) ∧ decode (.ph4 0xE#4) = .ok .rstClear := by decide

theorem witness_StepRunsDecodedInstruction :
    (let s := at_ .ksPack 0 0
     s.io.rst = false ∧ decode (.ph4 s.seq.ph.code) = .ok .ksPack) ∧
    (let s := presenting 0x0300000000000000#64
     s.io.rst = false ∧ s.seq.ph = .idle ∧ s.io.cmd = 0x0300000000000000#64 :: [] ∧
       decode (.cmd64 0x0300000000000000#64) = .ok .reset) := by decide

theorem witness_IllegalCommandIsReported :
    let s := presenting 0x0200000100000040#64
    s.io.rst = false ∧ s.seq = Seq.idle ∧ s.io.cmd = 0x0200000100000040#64 :: [] ∧
      decode (.cmd64 0x0200000100000040#64) = .error .processUpper := by decide

theorem witness_BusyEngineTakesNoCommandWord :
    let s := (presenting 0x0300000000000000#64).setSeq ⟨.rstClear, 0, 0⟩
    s.busy = true ∧ ∃ t, step s = .next t := ⟨by decide, _, rfl⟩

theorem witness_CommandsAreRefusedWhileBusy : (at_ .rstClear 0 0).busy = true := by decide

theorem witness_IdleEngineWaits :
    State.reset.io.rst = false ∧ State.reset.seq.ph = .idle ∧ State.reset.io.cmd = [] := by decide

theorem witness_RstAbortsToReset :
    ((at_ .blkCol 3 4).setIo { Io.reset with rst := true, din := [1#8] }).io.rst = true := by decide

theorem witness_InitIsAccepted : State.reset.busy = false ∧ (Instr.init 16 (2 ^ 32 - 1)).wellFormed = true := by decide

theorem witness_ProcessIsAccepted :
    State.reset.busy = false ∧ (Instr.process 0).wellFormed = true ∧
      ((Instr.process (2 ^ 32 - 1)).wellFormed = true ∧ 0 < 2 ^ 32 - 1) := by decide

theorem witness_ResetIsAccepted : State.reset.busy = false := by decide

theorem witness_KsCheckPasses :
    let s := supplied .ksCheck (key ++ nonce ++ [9#8]) 8#32 16#8 0#32
    s.io.din = key ++ nonce ++ [9#8] ∧ s.latch.klen.toNat = key.length ∧ s.latch.nlen.toNat = nonce.length ∧
      key ≠ [] ∧ nonce.length = 16 := by decide

/-- Inside the two clauses: the last key byte and the last nonce word. -/
theorem witness_KsCheckPasses_bytes :
    key[(7 : Fin 19).val]? = some 0x31#8 ∧ nonce[4 * (3 : Fin 4).val]? = some 0x0C#8 ∧
      nonce[4 * (3 : Fin 4).val + 1]? = some 0x0D#8 ∧ nonce[4 * (3 : Fin 4).val + 2]? = some 0x0E#8 ∧
      nonce[4 * (3 : Fin 4).val + 3]? = some 0x0F#8 := by decide

theorem witness_KsCheckFails :
    (let s := supplied .ksCheck nonce 0#32 16#8 0#32
     s.latch.klen.toNat + s.latch.nlen.toNat ≤ s.io.din.length ∧ s.latch.klen = 0#32) ∧
    (let s := supplied .ksCheck nonce 1#32 15#8 0#32
     s.latch.klen.toNat + s.latch.nlen.toNat ≤ s.io.din.length ∧ s.latch.nlen ≠ 16#8) := by decide

theorem witness_KsPackResult :
    let s := (at_ .ksPack 0 15).setLatch keyLatch
    key ≠ [] ∧ s.latch.klen.toNat = key.length ∧
      (∀ p : Fin 19, ∀ b ∈ key[p.val]?, s.latch.keybuf[p] = b) := by decide

theorem witness_KsPackRunsWithoutAKey : (at_ .ksPack 0 0).latch.klen = 0#32 := by decide

theorem witness_KsNonceResult : (at_ .ksNonce 3 15).seq.r.val = (3 : Fin 4).val := by decide

theorem witness_InjectionCancelsAndIsSymmetric :
    let s := (at_ .blkInject 0 0).setCtr 5#32 5#32
    s.ctrLo = s.ctrHi := by decide

theorem witness_BlkDiagResult : (11 : Index).val = (5 * (at_ .blkDiag 19 15).seq.i.val) % 16 := by decide

theorem witness_BlkXorSendsTheBlock :
    let s := supplied .blkXor (nonce ++ [9#8]) 0#32 0#8 16#32
    s.xorSent = false ∧ s.io.taking = true ∧ s.io.din = nonce ++ [9#8] ∧
      nonce.length = min (s.latch.len.toNat - s.off.toNat) 64 := by decide

/-- BLK_XOR has sent its block to a host that is not taking, with these bytes pending. -/
def untaken (dout : List Byte) : State :=
  ((at_ .blkXor 0 0).setXorSent true).setIo { Io.reset with dout := dout, taking := false }

theorem witness_BlkXorWaitsForTheHostToTake :
    (let s := (supplied .blkXor [1#8] 0#32 0#8 1#32).setIo { Io.reset with din := [1#8], taking := false }
     s.xorSent = false ∧ s.io.taking = false ∧ s.seq.ph = .blkXor ∧ s.blockLen ≤ s.io.din.length ∧
       0 < s.blockLen ∧ s.io.rst = false) ∧
    (let s := hostAct (.take 1) (untaken [1#8, 2#8])
     s.xorSent = true ∧ s.io.taking = false ∧ s.io.dout = [2#8] ∧ s.io.rst = false ∧ s.seq.ph = .blkXor) ∧
    (let s := hostAct (.setTaking true) (hostAct (.take 1) (untaken [1#8, 2#8]))
     s.xorSent = true ∧ s.io.taking = true ∧ s.io.dout = [2#8]) ∧
    (let s := hostAct (.take 2) (untaken [1#8, 2#8])
     s.xorSent = true ∧ s.io.dout = []) := by decide

/-- R200: the host has taken one of two bytes and stops, then takes the other. -/
theorem test_step_blkXor_host_stops_and_goes_on :
    after (hostAct (.take 1) (untaken [1#8, 2#8])) (fun t => (t.io.dout, t.seq.ph)) = some ([2#8], .blkXor) ∧
    after (hostAct (.setTaking true) (hostAct (.take 1) (untaken [1#8, 2#8])))
      (fun t => (t.io.taken, t.io.dout, t.xorSent, t.seq)) =
        some ([1#8, 2#8], [], false, ⟨.blkCtrinc, 0, 0⟩) := by decide

theorem witness_EngineWaitsForInputForEver :
    (let s := supplied .ksCheck [1#8] 1#32 1#8 0#32
     s.io.rst = false ∧ s.seq.ph = .ksCheck ∧ s.io.din.length < s.latch.klen.toNat + s.latch.nlen.toNat) ∧
    (let s := supplied .blkXor (List.replicate 63 0#8) 0#32 0#8 65#32
     s.io.rst = false ∧ s.seq.ph = .blkXor ∧ s.xorSent = false ∧
       s.io.din.length < min (s.latch.len.toNat - s.off.toNat) 64) := by decide

theorem witness_BlkNextResult :
    (let s := supplied .blkNext [] 0#32 0#8 64#32
     s.off.toNat < s.latch.len.toNat ∧ 64 = min (s.latch.len.toNat - s.off.toNat) 64 ∧
       s.off.toNat + 64 = s.latch.len.toNat) ∧
    (let s := supplied .blkNext [] 0#32 0#8 65#32
     s.off.toNat < s.latch.len.toNat ∧ 64 = min (s.latch.len.toNat - s.off.toNat) 64 ∧
       s.off.toNat + 64 < s.latch.len.toNat) := by decide

theorem witness_RotlMovesEachBit : (0 < 32 ∧ 31 < 32) ∧ (31 < 32 ∧ 0 < 32) := by decide

theorem witness_RotrMovesEachBitAndUndoesRotl : (0 < 32 ∧ 31 < 32) ∧ (31 < 32 ∧ 0 < 32) := by decide

theorem witness_UpdReadsTheArrayBeforeItsWrite :
    Config.colOffs = ⟨1, 7, 13⟩ ∧ Config.diaOffs = ⟨3, 9, 14⟩ ∧ (14 : Index) ≠ 15 := by decide

theorem reset_inv : State.reset.Inv := by constructor <;> first | decide | (constructor <;> decide)

theorem witness_StepKeepsInvariant : State.reset.Inv ∧ ∃ t, step State.reset = .next t := ⟨reset_inv, _, rfl⟩

theorem witness_InvariantAtResetAndUnderHostMoves : State.reset.Inv := reset_inv

theorem witness_OnlyThreePhasesAndRstWriteS :
    ∃ t, step ((at_ .ksCommit 0 0).setW sInit) = .next t ∧ t.S ≠ ((at_ .ksCommit 0 0).setW sInit).S :=
  ⟨_, rfl, by decide⟩

theorem witness_WritersOfCounterAndKeyed :
    (∃ t, step (at_ .blkCtrinc 0 0) = .next t ∧ t.ctrLo ≠ (at_ .blkCtrinc 0 0).ctrLo) ∧
    (∃ t, step (at_ .ksCommit 0 0) = .next t ∧ t.keyed = true ∧ (at_ .ksCommit 0 0).keyed = false) ∧
    (∃ t, step ((at_ .rstClear 0 0).setKeyed true) = .next t ∧ t.keyed = false ∧
      ((at_ .rstClear 0 0).setKeyed true).keyed = true) :=
  ⟨⟨_, rfl, by decide⟩, ⟨_, rfl, rfl, rfl⟩, ⟨_, rfl, rfl, rfl⟩⟩

theorem witness_ErrChangesOnlyAtCompletion :
    ∃ t, step (presenting 0#64) = .next t ∧ t.err ≠ (presenting 0#64).err := ⟨_, rfl, by decide⟩

theorem witness_NoStepReadsKeyedOrErr : ∃ t, step (at_ .blkCol 0 0) = .next t := ⟨_, rfl⟩

theorem witness_ProcessStateIgnoresTheData :
    let s := supplied .blkXor [1#8] 0#32 0#8 1#32
    s.io.rst = false ∧ s.seq.ph.ofProcess = true ∧ [2#8].length = s.io.din.length ∧
      ([] : List Byte).length = s.io.dout.length ∧ ∃ t, step s = .next t :=
  ⟨by decide, by decide, by decide, by decide, _, rfl⟩

theorem witness_DeadRegistersAreNeverObserved :
    State.reset.Inv ∧ State.reset.seq.ph = .idle ∧ State.reset.withDead ((at_ .idle 0 0).setW sInit) ≠ State.reset :=
  ⟨reset_inv, by decide, by decide⟩

theorem witness_HostMovesChangeOnlyTheChannels : HostAction.supply [1#8] ≠ .setRst true := by decide

theorem witness_InitRunsToItsCommandEffect :
    let s := State.reset.setIo { Io.reset with din := key ++ nonce ++ [9#8] }
    s.Ready ∧ (Instr.init nonce.length key.length).wellFormed = true ∧ s.io.din = key ++ nonce ++ [9#8] :=
  ⟨⟨by decide, by decide, by decide⟩, by decide, by decide⟩

theorem witness_ProcessRunsToItsCommandEffect :
    let s := State.reset.setIo { Io.reset with din := nonce ++ [9#8] }
    s.Ready ∧ s.io.taking = true ∧ (Instr.process nonce.length).wellFormed = true ∧ s.io.din = nonce ++ [9#8] :=
  ⟨⟨by decide, by decide, by decide⟩, by decide, by decide, by decide⟩

theorem witness_ResetRunsToItsCommandEffect : State.reset.Ready := ⟨by decide, by decide, by decide⟩

theorem witness_OnlyNineteenKeyBytesMatter :
    let k := List.replicate 19 0xA0#8
    let k' := List.replicate 19 0xA0#8 ++ [0x11#8]
    19 ≤ k.length ∧ 19 ≤ k'.length ∧ k.take 19 = k'.take 19 ∧ k ≠ k' := by decide

theorem witness_NonceWordOrderDoesNotMatter :
    (#v[1#32, 1#32, 2#32, 2#32] : Vector Word 4).toList.Perm (#v[2#32, 1#32, 2#32, 1#32] : Vector Word 4).toList ∧
      (#v[1#32, 1#32, 2#32, 2#32] : Vector Word 4)[0] = (#v[1#32, 1#32, 2#32, 2#32] : Vector Word 4)[1] ∧
      (#v[1#32, 1#32, 2#32, 2#32] : Vector Word 4)[2] = (#v[1#32, 1#32, 2#32, 2#32] : Vector Word 4)[3] := by decide

theorem witness_AllZeroStateGivesAZeroBlock :
    State.reset.arch.S = zeroWords ∧ State.reset.arch.ctrLo = 0#32 ∧ State.reset.arch.ctrHi = 0#32 := by decide

theorem witness_PartialBlockConsumesAWholeBlock : nonce ≠ [] ∧ nonce.length ≤ 64 := by decide

theorem witness_StateAndKeystreamIgnoreTheData :
    let a := State.reset.arch
    let a' : Arch := { a with keyed := true, err := 4#3 }
    [[1#8, 2#8], [5#8]].map List.length = [[3#8, 4#8], [6#8]].map List.length ∧
      a.S = a'.S ∧ a.ctrLo = a'.ctrLo ∧ a.ctrHi = a'.ctrHi ∧ a ≠ a' := by decide

theorem witness_ProcessingTheOutputsRestoresTheInputs : key ≠ [] ∧ nonce.length = 16 := by decide

theorem witness_ChunkingAtBlockBoundaries : 64 ∣ (List.replicate 128 0#8).length := by
  rw [List.length_replicate]
  exact ⟨2, rfl⟩

end Sys2Proof.Tests
end

section
/-! The datapath functions bit by bit: rotations. -/

namespace Sys2Proof.Machine

variable {v : Word} {s : Nat}

/-- The low `s` bits of `rotl v s` are the top `s` bits of `v`, and the others come from `s` places below (R90). -/
theorem getLsbD_rotl (hs : s < 32) (i : Nat) :
    (rotl v s).getLsbD i = if i < s then v.getLsbD (32 - s + i) else decide (i < 32) && v.getLsbD (i - s) := by
  rw [rotl, BitVec.getLsbD_rotateLeft_of_le hs, Bool.cond_decide]

/-- A bit that stays inside the word moves up by `s`. -/
theorem getLsbD_rotl_add {b : Nat} (h : b + s < 32) : (rotl v s).getLsbD (b + s) = v.getLsbD b := by
  have hge : ¬ b + s < s := by omega
  rw [getLsbD_rotl (by omega), if_neg hge, decide_eq_true h, Bool.true_and, Nat.add_sub_cancel]

/-- A bit pushed out at the top of the word comes back at its bottom. -/
theorem getLsbD_rotl_add_sub {b : Nat} (hs : s < 32) (hb : b < 32) (h : 32 ≤ b + s) :
    (rotl v s).getLsbD (b + s - 32) = v.getLsbD b := by
  have hlow : b + s - 32 < s := by omega
  have hsource : 32 - s + (b + s - 32) = b := by omega
  rw [getLsbD_rotl hs, if_pos hlow, hsource]

end Sys2Proof.Machine
end

section
/-! Settlements about the rotations. -/

namespace Sys2Proof.Machine

/-- Settles O35: bit `b` either stays inside the word (`b + s < 32`) or wraps around once. -/
theorem rotlMovesEachBit : Obligations.RotlMovesEachBit := by
  intro v s b hs hb
  rcases Nat.lt_or_ge (b + s) 32 with hstay | hwrap
  · rw [Nat.mod_eq_of_lt hstay, getLsbD_rotl_add hstay]
  · have hmod : (b + s) % 32 = b + s - 32 := by omega
    rw [hmod, getLsbD_rotl_add_sub hs hb hwrap]

end Sys2Proof.Machine
end

section
/-! What the key schedule reads: a word packed from four bytes, the cyclic key window, the nonce word, a word index as
an addend. -/

namespace Sys2Proof.Machine

/-- A byte appended on the right moves the bits on its left up by eight places. -/
theorem toNat_append_byte {n : Nat} (x : BitVec n) (b : Byte) : (x ++ b).toNat = x.toNat * 2 ^ 8 + b.toNat := by
  rw [BitVec.toNat_append, ← Nat.shiftLeft_add_eq_or_of_lt b.isLt, Nat.shiftLeft_eq]

/-- Big-endian packing by value (R50). -/
theorem be32_toNat (b0 b1 b2 b3 : Byte) :
    (be32 b0 b1 b2 b3).toNat = b0.toNat * 2 ^ 24 + b1.toNat * 2 ^ 16 + b2.toNat * 2 ^ 8 + b3.toNat := by
  rw [be32, toNat_append_byte, toNat_append_byte, toNat_append_byte]
  omega

/-- With the key's first 19 bytes in KEYBUF, KS_PACK reads for word `i` at place `k` the byte `(i + k) mod KLEN` of the
key itself: that position is below KLEN, and KEYBUF reaches it (R112, R116). -/
theorem getElem?_eq_some_keyByte {l : Latch} {key : List Byte} (hne : key ≠ []) (hlen : l.klen.toNat = key.length)
    (hbuf : ∀ p : Fin 19, ∀ b, key[p.val]? = some b → l.keybuf[p] = b) (i : Index) (k : Fin 4) :
    key[(i.val + k.val) % key.length]? = some (keyByte l i k) := by
  have hpos : 0 < key.length := List.length_pos_iff.mpr hne
  have hklen : l.klen ≠ 0#32 := by
    intro h
    rw [h, BitVec.toNat_zero] at hlen
    omega
  obtain ⟨b, hread⟩ : ∃ b, key[(i.val + k.val) % key.length]? = some b :=
    ⟨_, List.getElem?_eq_getElem (Nat.mod_lt _ hpos)⟩
  have hheld : l.keybuf[keyPosition i k key.length] = b := hbuf _ b hread
  simp only [keyByte, if_neg hklen, hlen, hheld, hread]

/-- The nonce word KS_NONCE folds in is the one whose index SEQ.r holds (R113). -/
theorem nonceWord_of_val_eq (l : Latch) {r : Fin 20} {j : Fin 4} (h : r.val = j.val) : nonceWord l r = l.nw[j] := by
  simp only [nonceWord, h, Fin.ofNat_val_eq_self]

/-- Adding a word index wraps around at 2^32 (R8, R113, R133). -/
theorem add_indexWord (n : Word) (i : Index) : n + indexWord i = BitVec.ofNat 32 (n.toNat + i.val) := by
  rw [BitVec.ofNat_add, BitVec.ofNat_toNat, BitVec.setWidth_eq, indexWord]

end Sys2Proof.Machine
end

section
/-! The word UPD writes. -/

namespace Sys2Proof.Machine

/-- An index moved by a nonzero offset is another index. -/
theorem index_add_ne {t o : Index} (h : o ≠ 0) : t + o ≠ t := fun e => h (add_eq_left.mp e)

/-- The word UPD writes at `t`: with no offset zero, the neighbours it reads are those of the array before its write
(R94). -/
theorem upd_self (a : Words) (t : Index) (e : Word) {o : Offsets} (h1 : o.o1 ≠ 0) (h2 : o.o2 ≠ 0) (h3 : o.o3 ≠ 0) :
    (upd a t e o)[t] = T (a[t] ^^^ e) ^^^ Mix a[t + o.o1] a[t + o.o2] a[t + o.o3] := by
  simp only [upd, words_set_self]
  rw [words_set_other _ _ (index_add_ne h1), words_set_other _ _ (index_add_ne h2),
    words_set_other _ _ (index_add_ne h3)]

/-- A pass over the array with the column offsets has no second operand: `T` of the word itself (R95, R114, R134). -/
theorem upd_colOffs_self (a : Words) (t : Index) :
    (upd a t 0#32 Config.colOffs)[t] = T a[t] ^^^ Mix a[t + 1] a[t + 7] a[t + 13] := by
  rw [upd_self a t 0#32 (by decide) (by decide) (by decide), BitVec.xor_zero]
  rfl

end Sys2Proof.Machine
end

section
/-! The micro-operations of the key schedule as next states. -/

namespace Sys2Proof.Machine

/-- KS_PACK writes one word of W and SEQ (R112, R117). -/
theorem exec_ksPack (s : State) :
    exec .ksPack s = .next { s with
      W := s.W.set s.seq.i (packWord s.latch s.seq.i), seq := nextWord s.seq .ksPack ⟨.ksNonce, 0, 0⟩ } := rfl

/-- KS_NONCE writes one word of W and SEQ (R113, R117). -/
theorem exec_ksNonce (s : State) :
    exec .ksNonce s = .next { s with
      W := foldNonceWord s.W (nonceWord s.latch s.seq.r) s.seq.i
      seq := nextRound s.seq .ksNonce .ksNonce 3 ⟨.ksDiffuse, 0, 0⟩ } := rfl

/-- KS_DIFFUSE writes W by UPD, and SEQ (R114, R117). -/
theorem exec_ksDiffuse (s : State) :
    exec .ksDiffuse s = .next { s with
      W := upd s.W s.seq.i 0#32 Config.colOffs
      seq := nextRound s.seq .ksDiffuse .ksDiffuse (Config.ksRounds - 1) ⟨.ksCommit, 0, 0⟩ } := rfl

/-- KS_COMMIT writes the persistent state and completes the command (R115). -/
theorem exec_ksCommit (s : State) :
    exec .ksCommit s = .next (complete { s with S := s.W, ctrLo := 0#32, ctrHi := 0#32, keyed := true }) := rfl

end Sys2Proof.Machine
end

section
/-! Settlements about the key schedule. -/

namespace Sys2Proof.Machine

/-- Settles O18: the four bytes are those KS_PACK reads from KEYBUF, each of them the key's own byte. -/
theorem ksPackResult : Obligations.KsPackResult := by
  intro s key hne hlen hbuf
  have hbyte := getElem?_eq_some_keyByte hne hlen hbuf s.seq.i
  refine ⟨_, _, _, _, _, exec_ksPack s, hbyte 0, hbyte 1, hbyte 2, hbyte 3, ?written, ?others, rfl, rfl⟩
  case written => rw [words_set_self, packWord, be32_toNat]
  case others => exact fun _ hj => words_set_other _ _ hj

/-- Settles O20: the nonce word is the one SEQ.r selects, and the sum with the word index wraps around. -/
theorem ksNonceResult : Obligations.KsNonceResult := by
  intro s j hj
  refine ⟨_, exec_ksNonce s, ?written, ?others, ?successor, rfl⟩
  case written => rw [foldNonceWord_self, nonceWord_of_val_eq s.latch hj, add_indexWord]
  case others => exact fun _ hk => foldNonceWord_other _ _ hk
  case successor => rw [← hj]; rfl

/-- Settles O21: the offsets 1, 7, 13 never meet the word being written, so UPD reads the words as they stand. -/
theorem ksDiffuseResult : Obligations.KsDiffuseResult := fun s =>
  ⟨_, exec_ksDiffuse s, upd_colOffs_self s.W s.seq.i, fun _ hk => upd_other _ _ _ hk, rfl, rfl⟩

/-- Settles O22: S takes W before the completion, which leaves S, CTR and KEYED alone and ends the command. -/
theorem ksCommitResult : Obligations.KsCommitResult := fun s =>
  ⟨_, exec_ksCommit s, fun _ => rfl, rfl, rfl, rfl, complete_err _, complete_seq _, rfl, rfl⟩

end Sys2Proof.Machine
end

section
/-! The words the diagonal pass and BLK_DIAG meet. -/

namespace Sys2Proof.Machine

/-- A diagonal update has no second operand: `T` of the word itself (R95, R135). -/
theorem upd_diaOffs_self (a : Words) (t : Index) :
    (upd a t 0#32 Config.diaOffs)[t] = T a[t] ^^^ Mix a[t + 3] a[t + 9] a[t + 14] := by
  rw [upd_self a t 0#32 (by decide) (by decide) (by decide), BitVec.xor_zero]
  rfl

/-- The ratchet's update folds its second operand into the word before `T` (R140). -/
theorem upd_colOffs_self_operand (a : Words) (t : Index) (e : Word) :
    (upd a t e Config.colOffs)[t] = T (a[t] ^^^ e) ^^^ Mix a[t + 1] a[t + 7] a[t + 13] :=
  upd_self a t e (by decide) (by decide) (by decide)

/-- The position the diagonal pass visits, by its number (R135). -/
theorem eq_diaStride_mul {i idx : Index} (h : idx.val = (5 * i.val) % 16) : idx = Config.diaStride * i :=
  Fin.ext (h.trans (Fin.val_mul Config.diaStride i).symm)

end Sys2Proof.Machine
end

section
/-! The micro-operations of PROCESS as next states. -/

namespace Sys2Proof.Machine

/-- BLK_LOAD writes W and SEQ (R132, R149). -/
theorem exec_blkLoad (s : State) :
    exec .blkLoad s = .next { s with W := s.S, seq := ⟨.blkInject, 0, 0⟩ } := rfl

/-- BLK_INJECT writes one word of W and SEQ (R133, R149). -/
theorem exec_blkInject (s : State) :
    exec .blkInject s = .next { s with
      W := injectWord s.W s.ctrLo s.ctrHi s.seq.i, seq := nextWord s.seq .blkInject ⟨.blkCol, 0, 0⟩ } := rfl

/-- BLK_COL writes W by UPD, and SEQ (R134, R149). -/
theorem exec_blkCol (s : State) :
    exec .blkCol s = .next { s with
      W := upd s.W s.seq.i 0#32 Config.colOffs, seq := nextWord s.seq .blkCol ⟨.blkDiag, s.seq.r, 0⟩ } := rfl

/-- BLK_DIAG writes W by UPD, and SEQ (R135, R149). -/
theorem exec_blkDiag (s : State) :
    exec .blkDiag s = .next { s with
      W := upd s.W (Config.diaStride * s.seq.i) 0#32 Config.diaOffs
      seq := nextRound s.seq .blkDiag .blkCol (Config.blkRounds - 1) ⟨.blkXor, 0, 0⟩ } := rfl

/-- BLK_XOR with its n bytes on DIN and nothing sent yet sends the block (R138). -/
theorem exec_blkXor_of_supplied {s : State} (hsent : s.xorSent = false) (hdin : s.blockLen ≤ s.io.din.length) :
    exec .blkXor s = .next (leaveXor (sendBlock s.blockLen s)) := by
  simp only [exec, execBlkXor, hsent, Bool.false_eq_true, if_false, if_neg (Nat.not_lt.mpr hdin)]

/-- BLK_CTRINC writes the counter and SEQ (R139, R149). -/
theorem exec_blkCtrinc (s : State) :
    exec .blkCtrinc s = .next { s with
      ctrLo := ctrNextLo s.ctrLo, ctrHi := ctrNextHi s.ctrLo s.ctrHi, seq := ⟨.blkRatchet, 0, 0⟩ } := rfl

/-- BLK_RATCHET writes S by UPD, and SEQ (R140, R149). -/
theorem exec_blkRatchet (s : State) :
    exec .blkRatchet s = .next { s with
      S := upd s.S s.seq.i s.W[s.seq.i] Config.colOffs
      seq := nextWord s.seq .blkRatchet ⟨.blkNext, 0, 0⟩ } := rfl

/-- BLK_NEXT with input left writes OFF and SEQ (R141, R149). -/
theorem exec_blkNext_of_lt {s : State} (h : s.off.toNat + s.blockLen < s.latch.len.toNat) :
    exec .blkNext s = .next { s with
      off := s.off + BitVec.ofNat 32 s.blockLen, seq := ⟨.blkLoad, 0, 0⟩ } := if_pos h

/-- BLK_NEXT with the input consumed completes the command and writes OFF (R141, R149). -/
theorem exec_blkNext_of_not_lt {s : State} (h : ¬ s.off.toNat + s.blockLen < s.latch.len.toNat) :
    exec .blkNext s = .next { complete s with off := s.off + BitVec.ofNat 32 s.blockLen } := if_neg h

end Sys2Proof.Machine
end

section
/-! Settlements about keystream generation and the ratchet. -/

namespace Sys2Proof.Machine

/-- Settles O23: W takes S and S stays. -/
theorem blkLoadResult : Obligations.BlkLoadResult := fun s =>
  ⟨_, exec_blkLoad s, fun _ => rfl, rfl, rfl⟩

/-- Settles O24: both sums of a counter half with the word index wrap around. -/
theorem blkInjectResult : Obligations.BlkInjectResult := by
  intro s
  refine ⟨_, exec_blkInject s, ?written, fun _ hk => injectWord_other _ _ _ hk, rfl, rfl⟩
  case written => rw [injectWord_self, add_indexWord, add_indexWord]

/-- Settles O26: the offsets 1, 7, 13 never meet the word being written, so UPD reads the words as they stand. -/
theorem blkColResult : Obligations.BlkColResult := fun s =>
  ⟨_, exec_blkCol s, upd_colOffs_self s.W s.seq.i, fun _ hk => upd_other _ _ _ hk, rfl, rfl⟩

/-- Settles O27: the position visited is the stride times the word index, and the offsets 3, 9, 14 never meet it. -/
theorem blkDiagResult : Obligations.BlkDiagResult := by
  intro s idx hidx
  obtain rfl := eq_diaStride_mul hidx
  exact ⟨_, exec_blkDiag s, upd_diaOffs_self s.W _, fun _ hk => upd_other _ _ _ hk, rfl, rfl⟩

/-- Settles O32: the neighbours UPD reads are those of S, none of them the word being written. -/
theorem blkRatchetResult : Obligations.BlkRatchetResult := fun s =>
  ⟨_, exec_blkRatchet s, upd_colOffs_self_operand s.S s.seq.i _, fun _ hk => upd_other _ _ _ hk, rfl, rfl⟩

end Sys2Proof.Machine
end

section
/-! The counter and the block loop. -/

namespace Sys2Proof.Machine

/-- The low half of the counter wraps around at 2^32 (R139). -/
theorem ctrNextLo_toNat (lo : Word) : (ctrNextLo lo).toNat = (lo.toNat + 1) % 2 ^ 32 := BitVec.toNat_add lo 1#32

/-- The high half advances, itself modulo 2^32, when the low half wrapped to 0 (R139). -/
theorem ctrNextHi_toNat_of_wrapped {lo : Word} (hi : Word) (h : ctrNextLo lo = 0#32) :
    (ctrNextHi lo hi).toNat = (hi.toNat + 1) % 2 ^ 32 := by
  rw [ctrNextHi, if_pos h]
  exact BitVec.toNat_add hi 1#32

/-- The high half stays when the low half did not wrap (R139). -/
theorem ctrNextHi_of_not_wrapped {lo : Word} (hi : Word) (h : ctrNextLo lo ≠ 0#32) : ctrNextHi lo hi = hi := if_neg h

/-- OFF advances by the block's length without wrapping, since it does not pass LEN (R141). -/
theorem off_add_blockLen_toNat {s : State} (h : s.off.toNat < s.latch.len.toNat) :
    (s.off + BitVec.ofNat 32 s.blockLen).toNat = s.off.toNat + s.blockLen := by
  have hle : s.blockLen ≤ s.latch.len.toNat - s.off.toNat := Nat.min_le_left _ _
  have hlen := s.latch.len.isLt
  rw [BitVec.toNat_add, BitVec.toNat_ofNat]
  omega

/-- Settles O31: the counter's halves are `ctrNextLo` and `ctrNextHi`, the carry decided by the low half's new value. -/
theorem blkCtrincResult : Obligations.BlkCtrincResult := fun s =>
  ⟨_, exec_blkCtrinc s, ctrNextLo_toNat _, ctrNextHi_toNat_of_wrapped _, ctrNextHi_of_not_wrapped _, rfl, rfl⟩

/-- Settles O33: while input is left BLK_NEXT writes OFF and SEQ only; the last block completes the command. -/
theorem blkNextResult : Obligations.BlkNextResult := by
  intro s n hoff hn
  obtain rfl : n = s.blockLen := hn
  have hadd := off_add_blockLen_toNat hoff
  by_cases hmore : s.off.toNat + s.blockLen < s.latch.len.toNat
  · exact ⟨_, exec_blkNext_of_lt hmore, hadd, fun _ => ⟨rfl, rfl⟩, fun hdone => absurd hmore hdone.not_lt⟩
  · exact ⟨_, exec_blkNext_of_not_lt hmore, hadd, fun hlt => absurd hlt hmore,
      fun _ => ⟨complete_seq s, complete_err s, rfl, rfl⟩⟩

end Sys2Proof.Machine
end

section
/-! The bytes of a block and the end of BLK_XOR. -/

namespace Sys2Proof.Machine

/-- Byte `k` of the output is byte `k` of the input exclusive-ored with byte `k` of the keystream block (R138). -/
theorem getElem?_xorBytes {data : List Byte} (w : Words) {k : Fin 64} {b : Byte} (h : data[k.val]? = some b) :
    (xorBytes data w)[k.val]? = some (b ^^^ keystreamByte w k) :=
  List.getElem?_zipWith_eq_some.mpr ⟨b, keystreamByte w k, h, by simp [keystreamBytes], rfl⟩

/-- The keystream is serialised little-endian (R52). -/
theorem keystreamByte_eq (w : Words) (k : Fin 64) :
    keystreamByte w k = (w[k.val / 4]).extractLsb' (8 * (k.val % 4)) 8 := rfl

/-- A host that is taking takes everything pending on DOUT, so BLK_XOR ends (R200). -/
theorem leaveXor_of_taking {s : State} (h : s.io.taking = true) :
    leaveXor s = { s with
      io := { s.io with dout := [], taken := s.io.taken ++ s.io.dout }
      xorSent := false, seq := ⟨.blkCtrinc, 0, 0⟩ } := by
  simp [leaveXor, hostTakesIfTaking, hostTakes, h, State.setIo, State.setXorSent, State.setSeq]

/-- BLK_XOR for a host that supplies the block and takes the output: the block's bytes leave DIN, and what was pending
and the output are taken (R138, R200). -/
theorem exec_blkXor_of_taking {s : State} (hsent : s.xorSent = false) (htaking : s.io.taking = true)
    (hdin : s.blockLen ≤ s.io.din.length) :
    exec .blkXor s = .next { s with
      io := { s.io with
        din := s.io.din.drop s.blockLen, dout := []
        taken := s.io.taken ++ (s.io.dout ++ xorBytes (s.io.din.take s.blockLen) s.W) }
      seq := ⟨.blkCtrinc, 0, 0⟩ } := by
  have hleave : leaveXor (sendBlock s.blockLen s) = _ := leaveXor_of_taking htaking
  rw [exec_blkXor_of_supplied hsent hdin, hleave, ← hsent]
  rfl

/-- Settles O28: `data` is the first block of DIN, and its exclusive-or with the keystream is what the host takes. -/
theorem blkXorSendsTheBlock : Obligations.BlkXorSendsTheBlock := by
  intro s data more hsent htaking hdin hlen
  have hblock : s.blockLen = data.length := hlen.symm
  have hle : s.blockLen ≤ s.io.din.length := by simp [hdin, hblock]
  have htake : s.io.din.take s.blockLen = data := by rw [hdin, hblock, List.take_left]
  have hdrop : s.io.din.drop s.blockLen = more := by rw [hdin, hblock, List.drop_left]
  have hexec := exec_blkXor_of_taking hsent htaking hle
  rw [htake, hdrop] at hexec
  refine ⟨_, xorBytes data s.W, hexec, ?length, fun k b hb => getElem?_xorBytes s.W hb, rfl, ?output, rfl, rfl⟩
  case length => rw [xorBytes_length, ← hblock, Nat.min_eq_left (blockLen_le s)]
  case output => simp [State.output]

end Sys2Proof.Machine
end

section
/-! The keystream of a PROCESS, apart from its data. -/

namespace Sys2Proof.Machine

/-- The keystream of the next `b` blocks (R130, R136): what PROCESS exclusive-ors with its data. -/
def keystream : Nat → Arch → List Byte
  | 0, _ => []
  | b + 1, a => keystreamBytes (keystreamBlock a) ++ keystream b (afterBlock a)

@[simp] theorem keystream_length (b : Nat) (a : Arch) : (keystream b a).length = 64 * b := by
  induction b generalizing a with
  | zero => rfl
  | succ b ih =>
    rw [keystream, List.length_append, keystreamBytes_length, ih]
    omega

/-- Exclusive-or with a keystream in two parts is the two exclusive-ors one after the other. -/
theorem zipWith_xor_append : ∀ d k r : List Byte,
    List.zipWith (· ^^^ ·) d (k ++ r) =
      List.zipWith (· ^^^ ·) (d.take k.length) k ++ List.zipWith (· ^^^ ·) (d.drop k.length) r
  | _, [], _ => by simp
  | [], _ :: _, _ => by simp
  | _ :: d, _ :: k, r => by simp [zipWith_xor_append d k r]

/-- The exclusive-or of data and keystream, exclusive-ored with the data once more, is the keystream the data used. -/
theorem zipWith_xor_recovers_keystream : ∀ d k : List Byte,
    List.zipWith (· ^^^ ·) (List.zipWith (· ^^^ ·) d k) d = k.take d.length
  | [], _ => by simp
  | _ :: _, [] => by simp
  | x :: d, y :: k => by
    have hword : x ^^^ y ^^^ x = y := by rw [BitVec.xor_comm x y, BitVec.xor_assoc, BitVec.xor_self, BitVec.xor_zero]
    simp [hword, zipWith_xor_recovers_keystream d k]

/-- The output of `b` blocks is the data exclusive-ored with their keystream (R130). -/
theorem processBlocks_output (b : Nat) (buf : List Byte) (a : Arch) :
    (processBlocks b buf a).2 = List.zipWith (· ^^^ ·) buf (keystream b a) := by
  induction b generalizing buf a with
  | zero => exact List.zipWith_nil_right.symm
  | succ b ih =>
    rw [keystream, zipWith_xor_append, keystreamBytes_length, ← ih]
    rfl

/-- The output of a PROCESS is its data exclusive-ored with the keystream of its blocks (R130). -/
theorem processCommand_output (buf : List Byte) (a : Arch) :
    (processCommand buf a).2 = List.zipWith (· ^^^ ·) buf (keystream (blockCount buf.length) a) :=
  processBlocks_output _ buf a

/-- The blocks of a buffer have a keystream byte for each of its bytes (R130). -/
theorem le_blockCount_mul (n : Nat) : n ≤ 64 * blockCount n := by
  unfold blockCount
  omega

/-- A PROCESS puts out as many bytes as it takes (R130). -/
@[simp] theorem processCommand_output_length (buf : List Byte) (a : Arch) :
    (processCommand buf a).2.length = buf.length := by
  rw [processCommand_output, List.length_zipWith, keystream_length, Nat.min_eq_left (le_blockCount_mul _)]

/-- The output of a PROCESS exclusive-ored with its data is a keystream that depends on their number only (R147). -/
theorem processCommand_xor_data (buf : List Byte) (a : Arch) :
    List.zipWith (· ^^^ ·) (processCommand buf a).2 buf = (keystream (blockCount buf.length) a).take buf.length := by
  rw [processCommand_output, zipWith_xor_recovers_keystream]

/-- The state after a PROCESS depends on the data's length only (R131, R147). -/
theorem processCommand_state_of_length_eq {x y : List Byte} (h : x.length = y.length) (a : Arch) :
    (processCommand x a).1 = (processCommand y a).1 := by
  simp only [processCommand, h, processBlocks_state _ x y]

end Sys2Proof.Machine
end

section
/-! A sequence of PROCESS commands: what depends on the data, and what on KEYED and ERR. -/

namespace Sys2Proof.Machine

@[simp] theorem processMany_cons_state (buf : List Byte) (bufs : List (List Byte)) (a : Arch) :
    (processMany (buf :: bufs) a).1 = (processMany bufs (processCommand buf a).1).1 := rfl

@[simp] theorem processMany_cons_output (buf : List Byte) (bufs : List (List Byte)) (a : Arch) :
    (processMany (buf :: bufs) a).2 = (processCommand buf a).2 :: (processMany bufs (processCommand buf a).1).2 := rfl

/-- The state after PROCESS commands depends on the lengths of their buffers only (R147). -/
theorem processMany_state_of_lengths_eq {bufs bufs' : List (List Byte)}
    (h : bufs.map List.length = bufs'.map List.length) (a : Arch) :
    (processMany bufs a).1 = (processMany bufs' a).1 := by
  induction bufs generalizing bufs' a with
  | nil => rw [List.map_eq_nil_iff.mp h.symm]
  | cons buf bufs ih =>
    obtain ⟨buf', rest, rfl, hlen, hrest⟩ := List.map_eq_cons_iff.mp h.symm
    rw [processMany_cons_state, processMany_cons_state, processCommand_state_of_length_eq hlen, ih hrest.symm]

/-- The outputs exclusive-ored with the inputs depend on the lengths of the buffers only (R147). -/
theorem processMany_xor_data_of_lengths_eq {bufs bufs' : List (List Byte)}
    (h : bufs.map List.length = bufs'.map List.length) (a : Arch) :
    List.zipWith (· ^^^ ·) (processMany bufs a).2.flatten bufs.flatten =
      List.zipWith (· ^^^ ·) (processMany bufs' a).2.flatten bufs'.flatten := by
  induction bufs generalizing bufs' a with
  | nil => rw [List.map_eq_nil_iff.mp h.symm]
  | cons buf bufs ih =>
    obtain ⟨buf', rest, rfl, hlen, hrest⟩ := List.map_eq_cons_iff.mp h.symm
    simp only [processMany_cons_output, List.flatten_cons]
    rw [List.zipWith_append (processCommand_output_length buf a),
      List.zipWith_append (processCommand_output_length buf' a), processCommand_xor_data, processCommand_xor_data,
      processCommand_state_of_length_eq hlen, hlen, ih hrest.symm]

/-- The persistent state with KEYED and ERR cleared: S and CTR, which PROCESS reads (R131). -/
def Arch.clearFlags (a : Arch) : Arch := { a with keyed := false, err := 0#3 }

/-- What is left when KEYED and ERR are cleared is S and CTR. -/
theorem clearFlags_eq_iff {a a' : Arch} :
    a.clearFlags = a'.clearFlags ↔ a.S = a'.S ∧ a.ctrLo = a'.ctrLo ∧ a.ctrHi = a'.ctrHi := by
  simp [Arch.clearFlags]

/-- Blocks neither read KEYED and ERR nor write them (R30, R31, R131). -/
theorem processBlocks_clearFlags (b : Nat) (buf : List Byte) (a : Arch) :
    processBlocks b buf a.clearFlags = ((processBlocks b buf a).1.clearFlags, (processBlocks b buf a).2) := by
  induction b generalizing buf a with
  | zero => rfl
  | succ b ih =>
    have hafter : afterBlock a.clearFlags = (afterBlock a).clearFlags := rfl
    simp only [processBlocks, hafter, ih]
    rfl

/-- PROCESS reads neither KEYED nor ERR (R30, R31, R131). -/
theorem processCommand_clearFlags (buf : List Byte) (a : Arch) :
    processCommand buf a.clearFlags = ((processCommand buf a).1.clearFlags, (processCommand buf a).2) := by
  simp only [processCommand, processBlocks_clearFlags]
  rfl

/-- KEYED and ERR at the start make no difference to the outputs of PROCESS commands, nor to S and CTR after them. -/
theorem processMany_clearFlags (bufs : List (List Byte)) (a : Arch) :
    processMany bufs a.clearFlags = ((processMany bufs a).1.clearFlags, (processMany bufs a).2) := by
  induction bufs generalizing a with
  | nil => rfl
  | cons buf bufs ih => simp only [processMany, processCommand_clearFlags, ih]

/-- From two states that agree on S and CTR, the same PROCESS commands end with the same S and CTR and put out the same
bytes (R147). -/
theorem processMany_of_clearFlags_eq {a a' : Arch} (h : a.clearFlags = a'.clearFlags) (bufs : List (List Byte)) :
    (processMany bufs a).1.clearFlags = (processMany bufs a').1.clearFlags ∧
      (processMany bufs a).2 = (processMany bufs a').2 := by
  have hrun : processMany bufs a.clearFlags = processMany bufs a'.clearFlags := by rw [h]
  rw [processMany_clearFlags, processMany_clearFlags] at hrun
  exact Prod.ext_iff.mp hrun

/-- Settles O58: the lengths alone decide the state and the keystream, and KEYED and ERR are never read. -/
theorem stateAndKeystreamIgnoreTheData : Obligations.StateAndKeystreamIgnoreTheData := by
  intro bufs bufs' a a' hlengths hS hlo hhi
  obtain ⟨hstate, houtput⟩ := processMany_of_clearFlags_eq (clearFlags_eq_iff.mpr ⟨hS, hlo, hhi⟩) bufs'
  rw [← processMany_state_of_lengths_eq hlengths a] at hstate
  obtain ⟨hS', hlo', hhi'⟩ := clearFlags_eq_iff.mp hstate
  refine ⟨hS', hlo', hhi', ?wholeState, ?output, ?keystream⟩
  case wholeState =>
    rintro rfl
    exact processMany_state_of_lengths_eq hlengths a
  case output =>
    rintro rfl
    exact houtput
  case keystream =>
    rw [processMany_xor_data_of_lengths_eq hlengths, houtput]

end Sys2Proof.Machine
end

section
/-! The micro-operation of RESET. -/

namespace Sys2Proof.Machine

/-- Every word of the all-zero array is zero. -/
theorem getElem_zeroWords (i : Index) : zeroWords[i] = 0#32 := Vector.getElem_replicate i.isLt

/-- RST_CLEAR writes S, CTR, KEYED, ERR and SEQ, and gives no register a free value (R160, R161). -/
theorem exec_rstClear (s : State) :
    exec .rstClear s = .next { s with
      S := zeroWords, ctrLo := 0#32, ctrHi := 0#32, keyed := false, err := 0#3, seq := Seq.idle } := rfl

/-- An engine at the idle position is not busy (R26, R28). -/
theorem busy_eq_false_of_seq_eq_idle {s : State} (h : s.seq = Seq.idle) : s.busy = false := by
  rw [State.busy, h]
  rfl

/-- Settles O34: the state RST_CLEAR leaves, with every word of S zero and the sequencer idle. -/
theorem rstClearResult : Obligations.RstClearResult := fun s =>
  ⟨_, exec_rstClear s, getElem_zeroWords, rfl, rfl, rfl, rfl, rfl, busy_eq_false_of_seq_eq_idle rfl, rfl⟩

end Sys2Proof.Machine
end

section
/-! Errors: the bits of ERR, KS_CHECK on lengths it rejects, and an illegal word at an idle engine. -/

namespace Sys2Proof.Machine

/-- The bit of KEY_EMPTY, whatever the nonce length adds (R171, R178). -/
theorem getLsbD_initErrors_keyEmpty (klen nlen : Nat) : (initErrors klen nlen).getLsbD 0 = true ↔ klen = 0 := by
  have hother : (if nlen ≠ Config.nonceBytes then errNonceLen else 0#3).getLsbD 0 = false := by split <;> rfl
  rw [initErrors, BitVec.getLsbD_or, hother, Bool.or_false]
  by_cases hempty : klen = 0 <;> simp [hempty, errKeyEmpty]

/-- The bit of NONCE_LEN, whatever the key length adds (R172, R178). -/
theorem getLsbD_initErrors_nonceLen (klen nlen : Nat) : (initErrors klen nlen).getLsbD 1 = true ↔ nlen ≠ 16 := by
  have hother : (if klen = 0 then errKeyEmpty else 0#3).getLsbD 1 = false := by split <;> rfl
  rw [initErrors, BitVec.getLsbD_or, hother, Bool.false_or]
  by_cases hlen : nlen = 16 <;> simp [hlen, errNonceLen, Config.nonceBytes]

/-- INIT's preconditions never set the bit of ILLEGAL_CMD (R170). -/
theorem getLsbD_initErrors_illegalCmd (klen nlen : Nat) : (initErrors klen nlen).getLsbD 2 = false :=
  Nat.testBit_lt_two_pow (Nat.lt_succ_of_le (initErrors_le klen nlen))

/-- A key length is empty as a number exactly when it is as a register value. -/
theorem klen_toNat_eq_zero_iff (l : Latch) : l.klen.toNat = 0 ↔ l.klen = 0#32 :=
  BitVec.toNat_inj (y := 0#32)

/-- A nonce length is 16 as a number exactly when it is as a register value. -/
theorem nlen_toNat_eq_sixteen_iff (l : Latch) : l.nlen.toNat = 16 ↔ l.nlen = 16#8 :=
  BitVec.toNat_inj (y := 16#8)

/-- An empty key, or a nonce that is not 16 bytes, sets an error bit (R110, R111). -/
theorem initErrors_ne_zero_of_rejected {l : Latch} (h : l.klen = 0#32 ∨ l.nlen ≠ 16#8) :
    initErrors l.klen.toNat l.nlen.toNat ≠ 0#3 := by
  rw [Ne, initErrors_eq_zero]
  rintro ⟨hklen, hnlen⟩
  obtain hempty | hwrong := h
  · exact hklen ((klen_toNat_eq_zero_iff l).mpr hempty)
  · exact hwrong ((nlen_toNat_eq_sixteen_iff l).mp hnlen)

/-- KS_CHECK with its operands on DIN and an error bit set takes them from DIN and ends the command with that error; W,
OFF and the latches take free values (R111, R174). -/
theorem exec_ksCheck_of_error {s : State} (hdin : s.operandLen ≤ s.io.din.length)
    (herr : initErrors s.latch.klen.toNat s.latch.nlen.toNat ≠ 0#3) :
    exec .ksCheck s = .next { s with
      W := freeWords s.draws, off := Config.freeOff s.draws
      err := initErrors s.latch.klen.toNat s.latch.nlen.toNat, latch := freeLatch s.draws
      seq := Seq.idle, draws := s.draws + 1, io := { s.io with din := s.io.din.drop s.operandLen } } := by
  simp only [exec, execKsCheck, if_neg (Nat.not_lt.mpr hdin), if_pos herr]
  rw [raiseErr_eq, takeOperands_frame]

/-- An idle engine takes an illegal word from the port and reports it (R70, R173). -/
theorem step_of_illegal_word {s : State} {cw : BitVec 64} {rest : List (BitVec 64)} {r : DecodeReject}
    (hrst : s.io.rst = false) (hidle : s.seq.ph = .idle) (hcmd : s.io.cmd = cw :: rest)
    (hdecode : decode (.cmd64 cw) = .error r) :
    step s = .next (illegalCommand (takeCommand rest s)) := by
  simp only [step, hrst, hidle, hcmd, hdecode, microOp_idle, Bool.false_eq_true, if_false]

/-- The report of an illegal word writes ERR and SEQ, and W, OFF and the latches take free values (R173, R174). -/
theorem illegalCommand_eq (s : State) :
    illegalCommand s =
      { s with
        W := freeWords s.draws, off := Config.freeOff s.draws, err := errIllegalCmd, latch := freeLatch s.draws
        seq := Seq.idle, draws := s.draws + 1 } := rfl

end Sys2Proof.Machine
end

section
/-! Settlements about the errors. -/

namespace Sys2Proof.Machine

/-- Settles O17: taking the operands changes DIN and the latches only, and the error raised over it ends the command
with the bit of each cause. -/
theorem ksCheckFails : Obligations.KsCheckFails := by
  intro s hdin hrejected
  refine ⟨_, exec_ksCheck_of_error hdin (initErrors_ne_zero_of_rejected hrejected), ?keyEmpty, ?nonceLen,
    getLsbD_initErrors_illegalCmd _ _, rfl, busy_eq_false_of_seq_eq_idle rfl, rfl, rfl⟩
  case keyEmpty => exact (getLsbD_initErrors_keyEmpty _ _).trans (klen_toNat_eq_zero_iff _)
  case nonceLen => exact (getLsbD_initErrors_nonceLen _ _).trans (nlen_toNat_eq_sixteen_iff _).not

/-- Settles O7: the word is taken and the error raised; SEQ, which the report writes too, was at rest before. -/
theorem illegalCommandIsReported : Obligations.IllegalCommandIsReported := by
  intro s cw rest r hrst hseq hcmd hdecode
  have hidle : s.seq.ph = .idle := by rw [hseq]; rfl
  have hstep := step_of_illegal_word hrst hidle hcmd hdecode
  rw [illegalCommand_eq, ← hseq] at hstep
  exact ⟨_, hstep, rfl, rfl, busy_eq_false_of_seq_eq_idle hseq, rfl⟩

end Sys2Proof.Machine
end

section
/-! The command port: no instruction touches it, only the step of an idle engine takes a word from it. -/

namespace Sys2Proof.Machine

variable {s t : State}

/-- A host taking bytes from DOUT leaves the command port alone. -/
@[simp] theorem hostTakesIfTaking_cmd (s : State) : (hostTakesIfTaking s).io.cmd = s.io.cmd := by
  rw [(hostTakesIfTaking_frame s).1]

/-- The end of BLK_XOR, whether it leaves the phase or waits in it, leaves the command port alone. -/
@[simp] theorem leaveXor_cmd (s : State) : (leaveXor s).io.cmd = s.io.cmd := by
  obtain ⟨_, rfl, -, hleave⟩ | ⟨_, rfl, -, hleave⟩ := leaveXor_cases s <;> simp [hleave]

/-- PROCESS, when accepted, starts its first block or, with LEN = 0, completes; both leave the command port alone. -/
theorem exec_process_cmd {len : Nat} (h : exec (.process len) s = .next t) : t.io.cmd = s.io.cmd := by
  rw [exec, execProcess] at h
  obtain ⟨-, rfl⟩ := acceptCommand_next.mp h
  dsimp only
  split <;> rfl

/-- KS_CHECK waits, fails or passes, and takes bytes from DIN only. -/
theorem exec_ksCheck_cmd (h : exec .ksCheck s = .next t) : t.io.cmd = s.io.cmd := by
  simp only [exec, execKsCheck] at h
  split_ifs at h <;> obtain rfl := Host.Outcome.next.inj h <;> rfl

/-- BLK_XOR waits for DIN, sends its block or waits for the host; it moves bytes of DIN and DOUT only. -/
theorem exec_blkXor_cmd (h : exec .blkXor s = .next t) : t.io.cmd = s.io.cmd := by
  simp only [exec, execBlkXor] at h
  split_ifs at h <;> obtain rfl := Host.Outcome.next.inj h
  · exact leaveXor_cmd s
  · rfl
  · exact leaveXor_cmd (sendBlock s.blockLen s)

/-- BLK_NEXT goes on to the next block or completes the command, and moves no channel. -/
theorem exec_blkNext_cmd (h : exec .blkNext s = .next t) : t.io.cmd = s.io.cmd := by
  simp only [exec, execBlkNext] at h
  split_ifs at h <;> obtain rfl := Host.Outcome.next.inj h <;> rfl

/-- No instruction takes a word from the command port or puts one there. -/
theorem exec_cmd {i : Instr} (h : exec i s = .next t) : t.io.cmd = s.io.cmd := by
  cases i with
  | process => exact exec_process_cmd h
  | ksCheck => exact exec_ksCheck_cmd h
  | blkXor => exact exec_blkXor_cmd h
  | blkNext => exact exec_blkNext_cmd h
  | init | reset =>
    simp only [exec, execInit, execReset] at h
    obtain ⟨-, rfl⟩ := acceptCommand_next.mp h
    rfl
  | ksPack | ksNonce | ksDiffuse | ksCommit | blkLoad | blkInject | blkCol | blkDiag | blkCtrinc | blkRatchet
  | rstClear =>
    obtain rfl := Host.Outcome.next.inj h
    rfl

/-- A step of a busy engine is the reset input or the micro-operation of its phase (R26, R190). -/
theorem step_cases_of_busy (hbusy : s.busy = true) (h : step s = .next t) :
    (s.io.rst = true ∧ t = hardwareReset s) ∨
    (s.io.rst = false ∧ ∃ i, microOp s.seq.ph = some i ∧ exec i s = .next t) := by
  have hne : s.seq.ph ≠ .idle := bne_iff_ne.mp hbusy
  obtain hreset | hmicro | ⟨-, hidle, -⟩ | ⟨-, hidle, -⟩ | ⟨-, hidle, -⟩ := step_cases h
  · exact .inl hreset
  · exact .inr hmicro
  all_goals exact absurd hidle hne

end Sys2Proof.Machine
end

section
/-! Settlements about the command port. -/

namespace Sys2Proof.Machine

/-- Settles O8: a busy engine is reset, which keeps the host's words, or runs a micro-operation, which does not touch
the port. -/
theorem busyEngineTakesNoCommandWord : Obligations.BusyEngineTakesNoCommandWord := by
  intro s t hbusy hstep
  obtain ⟨-, rfl⟩ | ⟨-, i, -, hexec⟩ := step_cases_of_busy hbusy hstep
  · rw [hardwareReset_eq]
  · exact exec_cmd hexec

end Sys2Proof.Machine
end

section
/-! The fields of a command word and the rows of the decode table in terms of them (R71 to R76). -/

namespace Sys2Proof

/-- A command word is put together from its own fields (R71). -/
theorem commandWord_fields (cw : BitVec 64) : commandWord (cwOpc cw) (cwNlen cw) (cwRsv cw) (cwArg cw) = cw := by
  have hhigh : cwOpc cw ++ cwNlen cw = cw.extractLsb' 48 16 := BitVec.extractLsb'_append_extractLsb'_eq_extractLsb' rfl
  have hupper : cw.extractLsb' 48 16 ++ cwRsv cw = cw.extractLsb' 32 32 :=
    BitVec.extractLsb'_append_extractLsb'_eq_extractLsb' rfl
  have hwhole : cw.extractLsb' 32 32 ++ cwArg cw = cw.extractLsb' 0 64 :=
    BitVec.extractLsb'_append_extractLsb'_eq_extractLsb' rfl
  rw [commandWord, hhigh, hupper, hwhole, BitVec.extractLsb'_eq_self]

section
variable (opc nlen : BitVec 8) (rsv : BitVec 16) (arg : BitVec 32)

@[simp] theorem cwArg_commandWord : cwArg (commandWord opc nlen rsv arg) = arg :=
  BitVec.extractLsb'_append_eq_right

@[simp] theorem cwRsv_commandWord : cwRsv (commandWord opc nlen rsv arg) = rsv := by
  rw [cwRsv, commandWord, BitVec.extractLsb'_append_eq_of_le (by decide)]
  exact BitVec.extractLsb'_append_eq_right

@[simp] theorem cwNlen_commandWord : cwNlen (commandWord opc nlen rsv arg) = nlen := by
  rw [cwNlen, commandWord, BitVec.extractLsb'_append_eq_of_le (by decide),
    BitVec.extractLsb'_append_eq_of_le (by decide)]
  exact BitVec.extractLsb'_append_eq_right

@[simp] theorem cwOpc_commandWord : cwOpc (commandWord opc nlen rsv arg) = opc := by
  rw [cwOpc, commandWord, BitVec.extractLsb'_append_eq_of_le (by decide),
    BitVec.extractLsb'_append_eq_of_le (by decide)]
  exact BitVec.extractLsb'_append_eq_left

end

/-- A word is known by its four fields. -/
theorem eq_commandWord_iff {cw : BitVec 64} {opc nlen : BitVec 8} {rsv : BitVec 16} {arg : BitVec 32} :
    cw = commandWord opc nlen rsv arg ↔ cwOpc cw = opc ∧ cwNlen cw = nlen ∧ cwRsv cw = rsv ∧ cwArg cw = arg := by
  constructor
  · rintro rfl
    simp
  · rintro ⟨rfl, rfl, rfl, rfl⟩
    exact (commandWord_fields cw).symm

/-- A mask acts on each field by itself. -/
theorem and_commandWord (cw : BitVec 64) (opc nlen : BitVec 8) (rsv : BitVec 16) (arg : BitVec 32) :
    cw &&& commandWord opc nlen rsv arg =
      commandWord (cwOpc cw &&& opc) (cwNlen cw &&& nlen) (cwRsv cw &&& rsv) (cwArg cw &&& arg) := by
  have hopc : cwOpc (cw &&& commandWord opc nlen rsv arg) = cwOpc cw &&& cwOpc (commandWord opc nlen rsv arg) :=
    BitVec.extractLsb'_and
  have hnlen : cwNlen (cw &&& commandWord opc nlen rsv arg) = cwNlen cw &&& cwNlen (commandWord opc nlen rsv arg) :=
    BitVec.extractLsb'_and
  have hrsv : cwRsv (cw &&& commandWord opc nlen rsv arg) = cwRsv cw &&& cwRsv (commandWord opc nlen rsv arg) :=
    BitVec.extractLsb'_and
  have harg : cwArg (cw &&& commandWord opc nlen rsv arg) = cwArg cw &&& cwArg (commandWord opc nlen rsv arg) :=
    BitVec.extractLsb'_and
  rw [eq_commandWord_iff, hopc, hnlen, hrsv, harg]
  simp

/-- The row of INIT: the opcode, and RSV zero (R72). -/
theorem matches_init_row (cw : BitVec 64) :
    cw &&& 0xFF00FFFF00000000#64 = 0x0100000000000000#64 ↔ cwOpc cw = 0x01#8 ∧ cwRsv cw = 0#16 := by
  have hmask : 0xFF00FFFF00000000#64 = commandWord (BitVec.allOnes 8) 0#8 (BitVec.allOnes 16) 0#32 := by decide
  have hmatch : 0x0100000000000000#64 = commandWord 0x01#8 0#8 0#16 0#32 := by decide
  simp only [hmask, hmatch, and_commandWord, BitVec.and_allOnes, BitVec.and_zero, eq_commandWord_iff]
  simp

/-- The row of PROCESS: the opcode, and NLEN and RSV zero (R73). -/
theorem matches_process_row (cw : BitVec 64) :
    cw &&& 0xFFFFFFFF00000000#64 = 0x0200000000000000#64 ↔
      cwOpc cw = 0x02#8 ∧ cwNlen cw = 0#8 ∧ cwRsv cw = 0#16 := by
  have hmask : 0xFFFFFFFF00000000#64 =
      commandWord (BitVec.allOnes 8) (BitVec.allOnes 8) (BitVec.allOnes 16) 0#32 := by decide
  have hmatch : 0x0200000000000000#64 = commandWord 0x02#8 0#8 0#16 0#32 := by decide
  simp only [hmask, hmatch, and_commandWord, BitVec.and_allOnes, BitVec.and_zero, eq_commandWord_iff]
  simp

/-- The row of RESET: the opcode, and every operand field zero (R74). -/
theorem matches_reset_row (cw : BitVec 64) :
    cw = 0x0300000000000000#64 ↔ cwOpc cw = 0x03#8 ∧ cwNlen cw = 0#8 ∧ cwRsv cw = 0#16 ∧ cwArg cw = 0#32 := by
  have hmatch : 0x0300000000000000#64 = commandWord 0x03#8 0#8 0#16 0#32 := by decide
  rw [hmatch, eq_commandWord_iff]

/-- The decoder of command words, by fields (R75, R76). -/
theorem decode_cmd64 (cw : BitVec 64) :
    decode (.cmd64 cw) =
      if cwOpc cw = 0x01#8 ∧ cwRsv cw = 0#16 then .ok (.init (cwNlen cw).toNat (cwArg cw).toNat)
      else if cwOpc cw = 0x02#8 ∧ cwNlen cw = 0#8 ∧ cwRsv cw = 0#16 then .ok (.process (cwArg cw).toNat)
      else if cwOpc cw = 0x03#8 ∧ cwNlen cw = 0#8 ∧ cwRsv cw = 0#16 ∧ cwArg cw = 0#32 then .ok .reset
      else .error (illegalReason cw) := by
  simp only [decode, decodeCommand, matches_init_row, matches_process_row, matches_reset_row]

/-- The lengths of an INIT fit their widths (R77). -/
theorem wellFormed_init {nlen klen : Nat} :
    (Instr.init nlen klen).wellFormed = true ↔ nlen < 2 ^ 8 ∧ klen < 2 ^ 32 := by
  simp only [Instr.wellFormed, Bool.and_eq_true, decide_eq_true_eq]
  rfl

/-- The length of a PROCESS fits its width (R77). -/
theorem wellFormed_process {len : Nat} : (Instr.process len).wellFormed = true ↔ len < 2 ^ 32 := by
  simp only [Instr.wellFormed, decide_eq_true_eq]
  rfl

/-- A command word that decodes is well-formed and is the encoding of what it decodes to (R75, R77). -/
theorem encode_of_decode_cmd64 {cw : BitVec 64} {i : Instr} (h : decode (.cmd64 cw) = .ok i) :
    i.wellFormed = true ∧ encode i = .cmd64 cw := by
  rw [decode_cmd64] at h
  split_ifs at h with hinit hprocess hreset <;> obtain rfl := Except.ok.inj h
  · obtain ⟨hopc, hrsv⟩ := hinit
    refine ⟨wellFormed_init.mpr ⟨(cwNlen cw).isLt, (cwArg cw).isLt⟩, ?_⟩
    rw [encode, BitVec.ofNat_toNat, BitVec.ofNat_toNat, BitVec.setWidth_eq, BitVec.setWidth_eq, ← hopc, ← hrsv,
      commandWord_fields]
  · obtain ⟨hopc, hnlen, hrsv⟩ := hprocess
    refine ⟨wellFormed_process.mpr (cwArg cw).isLt, ?_⟩
    rw [encode, BitVec.ofNat_toNat, BitVec.setWidth_eq]
    exact congrArg InstrWord.cmd64 (eq_commandWord_iff.mpr ⟨hopc, hnlen, hrsv, rfl⟩).symm
  · exact ⟨rfl, congrArg InstrWord.cmd64 (eq_commandWord_iff.mpr hreset).symm⟩

/-- A phase code that decodes is the encoding of its micro-operation, which has no field to be ill-formed (R80). -/
theorem encode_of_decode_ph4 {code : BitVec 4} {i : Instr} (h : decode (.ph4 code) = .ok i) :
    i.wellFormed = true ∧ encode i = .ph4 code := by
  have htable : ∀ code : BitVec 4, ∀ i ∈ (decode (.ph4 code)).toOption,
      i.wellFormed = true ∧ encode i = .ph4 code := by decide
  exact htable code i (by rw [h]; rfl)

/-- A command word is illegal exactly when it lies in the row of no command (R75, R76). -/
theorem decode_cmd64_error_iff (cw : BitVec 64) :
    (∃ r, decode (.cmd64 cw) = .error r) ↔
      ¬ (cwOpc cw = 0x01#8 ∧ cwRsv cw = 0#16) ∧
      ¬ (cwOpc cw = 0x02#8 ∧ cwNlen cw = 0#8 ∧ cwRsv cw = 0#16) ∧
      ¬ (cwOpc cw = 0x03#8 ∧ cwNlen cw = 0#8 ∧ cwRsv cw = 0#16 ∧ cwArg cw = 0#32) := by
  rw [decode_cmd64]
  split_ifs with hinit hprocess hreset <;> simp [*]

/-- Two fields side by side are zero exactly when both are. -/
theorem append_eq_zero_iff {m n : Nat} (x : BitVec m) (y : BitVec n) : x ++ y = 0#(m + n) ↔ x = 0#m ∧ y = 0#n := by
  simp only [← BitVec.toNat_inj, BitVec.toNat_append, BitVec.toNat_zero, Nat.or_eq_zero_iff,
    Nat.shiftLeft_eq_zero_iff]

/-- CW[55:32] is NLEN and RSV. -/
theorem upper_eq_zero_iff (cw : BitVec 64) :
    cw.extractLsb' 32 24 = 0#24 ↔ cwNlen cw = 0#8 ∧ cwRsv cw = 0#16 := by
  have hfields : cwNlen cw ++ cwRsv cw = cw.extractLsb' 32 24 :=
    BitVec.extractLsb'_append_extractLsb'_eq_extractLsb' rfl
  rw [← hfields]
  exact append_eq_zero_iff _ _

/-- CW[55:0] is NLEN, RSV and ARG. -/
theorem operands_eq_zero_iff (cw : BitVec 64) :
    cw.extractLsb' 0 56 = 0#56 ↔ cwNlen cw = 0#8 ∧ cwRsv cw = 0#16 ∧ cwArg cw = 0#32 := by
  have hfields : cw.extractLsb' 32 24 ++ cwArg cw = cw.extractLsb' 0 56 :=
    BitVec.extractLsb'_append_extractLsb'_eq_extractLsb' rfl
  rw [← and_assoc, ← upper_eq_zero_iff, ← hfields]
  exact append_eq_zero_iff _ _

end Sys2Proof
end

section
/-! Settlements about the encoding. -/

namespace Sys2Proof

open Machine

/-- Settles O1: the fields of the word `encode` builds are the operands, which fit. -/
theorem decodeOfEncode : Obligations.DecodeOfEncode := by
  intro i hwf
  cases i with
  | init nlen klen => simpa [encode, decode_cmd64] using wellFormed_init.mp hwf
  | process len => simpa [encode, decode_cmd64] using wellFormed_process.mp hwf
  | reset => simp [encode, decode_cmd64]
  | ksCheck | ksPack | ksNonce | ksDiffuse | ksCommit | blkLoad | blkInject | blkCol | blkDiag | blkXor | blkCtrinc
  | blkRatchet | blkNext | rstClear => rfl

/-- Settles O2: each of the two formats by its own decoder. -/
theorem encodeOfDecode : Obligations.EncodeOfDecode := by
  intro w i h
  cases w with
  | cmd64 cw => exact encode_of_decode_cmd64 h
  | ph4 code => exact encode_of_decode_ph4 h

/-- Settles O3: with the opcode fixed, a word misses its command's row by the operand bits that must be zero; with no
command's opcode it misses all three. -/
theorem illegalWordsAreExactlyThoseListed : Obligations.IllegalWordsAreExactlyThoseListed := by
  intro cw
  have hopc (c : Byte) : cwOpc cw = c ↔ (cwOpc cw).toNat = c.toNat := BitVec.toNat_inj.symm
  rw [decode_cmd64_error_iff, Ne, Ne, Ne, upper_eq_zero_iff, operands_eq_zero_iff]
  change _ ↔ (cwOpc cw = 0x00#8 ∨ 0x04 ≤ (cwOpc cw).toNat) ∨ (cwOpc cw = 0x01#8 ∧ ¬ cwRsv cw = 0#16) ∨
    (cwOpc cw = 0x02#8 ∧ _) ∨ (cwOpc cw = 0x03#8 ∧ _)
  simp only [hopc, BitVec.toNat_ofNat]
  generalize (cwOpc cw).toNat = opc
  rcases opc with _ | _ | _ | _ | opc <;> simp

/-- Settles O4: the written-out words one by one, and the phases by cases. -/
theorem specWordsDecode : Obligations.SpecWordsDecode := by
  refine ⟨by decide, by decide, by decide, by decide, rfl, rfl, rfl, by decide, by decide, by decide, by decide,
    ?phases⟩
  case phases =>
    intro ph
    cases ph <;> simp [Phase.code, decode, decodePhase]

end Sys2Proof
end

section
/-! What a step can do, one case per micro-operation and branch. -/

namespace Sys2Proof.Machine

/-- RST is released and the sequencer is at phase `ph`. -/
def State.At (s : State) (ph : Phase) : Prop := s.io.rst = false ∧ s.seq.ph = ph

/-- An idle engine has the word `cw` at the port, `rest` behind it, and the word decodes to `i` (R70, R75). -/
def State.Accepts (s : State) (i : Instr) (rest : List (BitVec 64)) : Prop :=
  s.At .idle ∧ ∃ cw, s.io.cmd = cw :: rest ∧ decode (.cmd64 cw) = .ok i

/-- The states one step of the engine leads to: `step_eq_next_iff` ties it to `step`. -/
inductive Move (s : State) : State → Prop
  /-- RST is asserted (R190). -/
  | reset (hrst : s.io.rst = true) : Move s (hardwareReset s)
  /-- No word at the port (R70). -/
  | idleWaits (hat : s.At .idle) (hcmd : s.io.cmd = []) : Move s s
  /-- A word that is no command (R173). -/
  | illegal {cw : BitVec 64} {rest : List (BitVec 64)} {r : DecodeReject} (hat : s.At .idle)
      (hcmd : s.io.cmd = cw :: rest) (hdecode : decode (.cmd64 cw) = .error r) :
      Move s (illegalCommand (takeCommand rest s))
  /-- INIT is accepted (R25, R117). -/
  | initAccepted {nlen klen : Nat} {rest : List (BitVec 64)} (hacc : s.Accepts (.init nlen klen) rest) :
      Move s { s with
        latch := { s.latch with op := .init, klen := BitVec.ofNat 32 klen, nlen := BitVec.ofNat 8 nlen }
        seq := ⟨.ksCheck, 0, 0⟩, io := { s.io with cmd := rest } }
  /-- A PROCESS of no bytes completes at once (R142, R149). -/
  | emptyAccepted {len : Nat} {rest : List (BitVec 64)} (hacc : s.Accepts (.process len) rest)
      (hlen : BitVec.ofNat 32 len = 0#32) : Move s { complete (takeCommand rest s) with off := 0#32 }
  /-- A PROCESS of at least one byte is accepted (R25, R27, R149). -/
  | processAccepted {len : Nat} {rest : List (BitVec 64)} (hacc : s.Accepts (.process len) rest)
      (hlen : BitVec.ofNat 32 len ≠ 0#32) :
      Move s { s with
        latch := { s.latch with op := .process, len := BitVec.ofNat 32 len }, off := 0#32
        seq := ⟨.blkLoad, 0, 0⟩, io := { s.io with cmd := rest } }
  /-- RESET is accepted (R25, R161). -/
  | resetAccepted {rest : List (BitVec 64)} (hacc : s.Accepts .reset rest) :
      Move s { s with
        latch := { s.latch with op := .reset }, seq := ⟨.rstClear, 0, 0⟩, io := { s.io with cmd := rest } }
  /-- KS_CHECK waits for its operands (R200). -/
  | ksCheckWaits (hat : s.At .ksCheck) (hdin : s.io.din.length < s.operandLen) : Move s s
  /-- KS_CHECK rejects the lengths (R111, R174). -/
  | ksCheckFails (hat : s.At .ksCheck) (hdin : s.operandLen ≤ s.io.din.length)
      (herr : initErrors s.latch.klen.toNat s.latch.nlen.toNat ≠ 0#3) :
      Move s (raiseErr (initErrors s.latch.klen.toNat s.latch.nlen.toNat) (takeOperands s))
  /-- KS_CHECK takes its operands (R111). -/
  | ksCheckPasses (hat : s.At .ksCheck) (hdin : s.operandLen ≤ s.io.din.length)
      (herr : initErrors s.latch.klen.toNat s.latch.nlen.toNat = 0#3) :
      Move s { takeOperands s with seq := ⟨.ksPack, 0, 0⟩ }
  /-- KS_PACK (R112). -/
  | ksPack (hat : s.At .ksPack) :
      Move s { s with
        W := s.W.set s.seq.i (packWord s.latch s.seq.i), seq := nextWord s.seq .ksPack ⟨.ksNonce, 0, 0⟩ }
  /-- KS_NONCE (R113). -/
  | ksNonce (hat : s.At .ksNonce) :
      Move s { s with
        W := foldNonceWord s.W (nonceWord s.latch s.seq.r) s.seq.i
        seq := nextRound s.seq .ksNonce .ksNonce 3 ⟨.ksDiffuse, 0, 0⟩ }
  /-- KS_DIFFUSE (R114). -/
  | ksDiffuse (hat : s.At .ksDiffuse) :
      Move s { s with
        W := upd s.W s.seq.i 0#32 Config.colOffs
        seq := nextRound s.seq .ksDiffuse .ksDiffuse (Config.ksRounds - 1) ⟨.ksCommit, 0, 0⟩ }
  /-- KS_COMMIT (R115). -/
  | ksCommit (hat : s.At .ksCommit) :
      Move s (complete { s with S := s.W, ctrLo := 0#32, ctrHi := 0#32, keyed := true })
  /-- BLK_LOAD (R132). -/
  | blkLoad (hat : s.At .blkLoad) : Move s { s with W := s.S, seq := ⟨.blkInject, 0, 0⟩ }
  /-- BLK_INJECT (R133). -/
  | blkInject (hat : s.At .blkInject) :
      Move s { s with
        W := injectWord s.W s.ctrLo s.ctrHi s.seq.i, seq := nextWord s.seq .blkInject ⟨.blkCol, 0, 0⟩ }
  /-- BLK_COL (R134). -/
  | blkCol (hat : s.At .blkCol) :
      Move s { s with
        W := upd s.W s.seq.i 0#32 Config.colOffs, seq := nextWord s.seq .blkCol ⟨.blkDiag, s.seq.r, 0⟩ }
  /-- BLK_DIAG (R135). -/
  | blkDiag (hat : s.At .blkDiag) :
      Move s { s with
        W := upd s.W (Config.diaStride * s.seq.i) 0#32 Config.diaOffs
        seq := nextRound s.seq .blkDiag .blkCol (Config.blkRounds - 1) ⟨.blkXor, 0, 0⟩ }
  /-- BLK_XOR waits for its input (R200). -/
  | blkXorWaits (hat : s.At .blkXor) (hsent : s.xorSent = false) (hdin : s.io.din.length < s.blockLen) : Move s s
  /-- BLK_XOR sends its block (R138). -/
  | blkXorSends (hat : s.At .blkXor) (hsent : s.xorSent = false) (hdin : s.blockLen ≤ s.io.din.length) :
      Move s (leaveXor (sendBlock s.blockLen s))
  /-- BLK_XOR has sent its block before (R200). -/
  | blkXorSent (hat : s.At .blkXor) (hsent : s.xorSent = true) : Move s (leaveXor s)
  /-- BLK_CTRINC (R139). -/
  | blkCtrinc (hat : s.At .blkCtrinc) :
      Move s { s with
        ctrLo := ctrNextLo s.ctrLo, ctrHi := ctrNextHi s.ctrLo s.ctrHi, seq := ⟨.blkRatchet, 0, 0⟩ }
  /-- BLK_RATCHET (R140). -/
  | blkRatchet (hat : s.At .blkRatchet) :
      Move s { s with
        S := upd s.S s.seq.i s.W[s.seq.i] Config.colOffs, seq := nextWord s.seq .blkRatchet ⟨.blkNext, 0, 0⟩ }
  /-- BLK_NEXT goes on to the next block (R141). -/
  | blkNextLoops (hat : s.At .blkNext) (hmore : s.off.toNat + s.blockLen < s.latch.len.toNat) :
      Move s { s with off := s.off + BitVec.ofNat 32 s.blockLen, seq := ⟨.blkLoad, 0, 0⟩ }
  /-- BLK_NEXT completes the command (R141). -/
  | blkNextEnds (hat : s.At .blkNext) (hdone : ¬ s.off.toNat + s.blockLen < s.latch.len.toNat) :
      Move s { complete s with off := s.off + BitVec.ofNat 32 s.blockLen }
  /-- RST_CLEAR (R160, R161). -/
  | rstClear (hat : s.At .rstClear) :
      Move s { s with S := zeroWords, ctrLo := 0#32, ctrHi := 0#32, keyed := false, err := 0#3, seq := Seq.idle }

variable {s t : State}

/-- A busy engine runs the micro-operation of its phase (R26). -/
theorem step_of_microOp {ph : Phase} {i : Instr} (hat : s.At ph) (hmicro : microOp ph = some i) :
    step s = exec i s := by
  obtain ⟨hrst, rfl⟩ := hat
  simp [step, hrst, hmicro]

/-- An idle engine takes the word at the port and accepts its command (R70). -/
theorem step_of_accepts {i : Instr} {rest : List (BitVec 64)} (hacc : s.Accepts i rest) :
    step s = exec i (takeCommand rest s) := by
  obtain ⟨⟨hrst, hidle⟩, cw, hcmd, hdecode⟩ := hacc
  simp [step, hrst, hidle, hcmd, hdecode]

/-- An engine at IDLE is not busy (R28). -/
theorem busy_eq_false_of_ph_eq_idle (h : s.seq.ph = .idle) : s.busy = false := by
  rw [State.busy, h]
  rfl

/-- Taking a word from the port leaves an engine at IDLE (R70). -/
theorem State.Accepts.busy_takeCommand {i : Instr} {rest : List (BitVec 64)} (hacc : s.Accepts i rest) :
    (takeCommand rest s).busy = false :=
  busy_eq_false_of_ph_eq_idle (s := takeCommand rest s) hacc.1.2

/-- A command at an engine that is not busy starts (R70). -/
theorem acceptCommand_of_not_busy (h : s.busy = false) (start : State → State) :
    acceptCommand s start = .next (start s) :=
  acceptCommand_next.mpr ⟨h, rfl⟩

/-- INIT at an idle engine (R25, R117). -/
theorem exec_init (h : s.busy = false) (nlen klen : Nat) :
    exec (.init nlen klen) s = .next { s with
      latch := { s.latch with op := .init, klen := BitVec.ofNat 32 klen, nlen := BitVec.ofNat 8 nlen }
      seq := ⟨.ksCheck, 0, 0⟩ } := by
  rw [exec, execInit, acceptCommand_of_not_busy h]
  rfl

/-- PROCESS of no bytes at an idle engine (R142, R149). -/
theorem exec_process_of_zero (h : s.busy = false) {len : Nat} (hlen : BitVec.ofNat 32 len = 0#32) :
    exec (.process len) s = .next { complete s with off := 0#32 } := by
  rw [exec, execProcess, acceptCommand_of_not_busy h]
  exact congrArg Host.Outcome.next (if_pos hlen)

/-- PROCESS of at least one byte at an idle engine (R25, R27, R149). -/
theorem exec_process_of_ne_zero (h : s.busy = false) {len : Nat} (hlen : BitVec.ofNat 32 len ≠ 0#32) :
    exec (.process len) s = .next { s with
      latch := { s.latch with op := .process, len := BitVec.ofNat 32 len }, off := 0#32, seq := ⟨.blkLoad, 0, 0⟩ } := by
  rw [exec, execProcess, acceptCommand_of_not_busy h]
  exact congrArg Host.Outcome.next (if_neg hlen)

/-- RESET at an idle engine (R25, R161). -/
theorem exec_reset (h : s.busy = false) :
    exec .reset s = .next { s with latch := { s.latch with op := .reset }, seq := ⟨.rstClear, 0, 0⟩ } := by
  rw [exec, execReset, acceptCommand_of_not_busy h]
  rfl

/-- KS_CHECK without all its operand bytes waits (R200). -/
theorem exec_ksCheck_of_short (hdin : s.io.din.length < s.operandLen) : exec .ksCheck s = .next s := if_pos hdin

/-- KS_CHECK with an error bit set ends the command (R111, R174). -/
theorem exec_ksCheck_fails (hdin : s.operandLen ≤ s.io.din.length)
    (herr : initErrors s.latch.klen.toNat s.latch.nlen.toNat ≠ 0#3) :
    exec .ksCheck s =
      .next (raiseErr (initErrors s.latch.klen.toNat s.latch.nlen.toNat) (takeOperands s)) := by
  simp only [exec, execKsCheck, if_neg (Nat.not_lt.mpr hdin), if_pos herr]

/-- KS_CHECK with valid lengths takes the operands (R111). -/
theorem exec_ksCheck_passes (hdin : s.operandLen ≤ s.io.din.length)
    (herr : initErrors s.latch.klen.toNat s.latch.nlen.toNat = 0#3) :
    exec .ksCheck s = .next { takeOperands s with seq := ⟨.ksPack, 0, 0⟩ } := by
  simp only [exec, execKsCheck, if_neg (Nat.not_lt.mpr hdin), herr, ne_eq, not_true_eq_false, if_false]
  rfl

/-- BLK_XOR without all the bytes of its block waits (R200). -/
theorem exec_blkXor_of_short (hsent : s.xorSent = false) (hdin : s.io.din.length < s.blockLen) :
    exec .blkXor s = .next s := by
  simp [exec, execBlkXor, hsent, hdin]

/-- BLK_XOR that has sent its block waits for the host or ends (R200). -/
theorem exec_blkXor_of_sent (hsent : s.xorSent = true) : exec .blkXor s = .next (leaveXor s) := if_pos hsent

/-- Each move is what `step` does. -/
theorem Move.step_eq_next (h : Move s t) : step s = .next t := by
  cases h with
  | reset hrst => exact if_pos hrst
  | idleWaits hat hcmd => simp [step, hat.1, hat.2, hcmd]
  | illegal hat hcmd hdecode => exact step_of_illegal_word hat.1 hat.2 hcmd hdecode
  | initAccepted hacc =>
    exact (step_of_accepts hacc).trans (exec_init hacc.busy_takeCommand _ _)
  | emptyAccepted hacc hlen =>
    exact (step_of_accepts hacc).trans (exec_process_of_zero hacc.busy_takeCommand hlen)
  | processAccepted hacc hlen =>
    exact (step_of_accepts hacc).trans (exec_process_of_ne_zero hacc.busy_takeCommand hlen)
  | resetAccepted hacc => exact (step_of_accepts hacc).trans (exec_reset hacc.busy_takeCommand)
  | ksCheckWaits hat hdin => exact (step_of_microOp hat rfl).trans (exec_ksCheck_of_short hdin)
  | ksCheckFails hat hdin herr => exact (step_of_microOp hat rfl).trans (exec_ksCheck_fails hdin herr)
  | ksCheckPasses hat hdin herr => exact (step_of_microOp hat rfl).trans (exec_ksCheck_passes hdin herr)
  | blkXorWaits hat hsent hdin => exact (step_of_microOp hat rfl).trans (exec_blkXor_of_short hsent hdin)
  | blkXorSends hat hsent hdin => exact (step_of_microOp hat rfl).trans (exec_blkXor_of_supplied hsent hdin)
  | blkXorSent hat hsent => exact (step_of_microOp hat rfl).trans (exec_blkXor_of_sent hsent)
  | blkNextLoops hat hmore => exact (step_of_microOp hat rfl).trans (exec_blkNext_of_lt hmore)
  | blkNextEnds hat hdone => exact (step_of_microOp hat rfl).trans (exec_blkNext_of_not_lt hdone)
  | ksPack hat | ksNonce hat | ksDiffuse hat | ksCommit hat | blkLoad hat | blkInject hat | blkCol hat | blkDiag hat
  | blkCtrinc hat | blkRatchet hat | rstClear hat => exact step_of_microOp hat rfl

/-- KS_CHECK waits, rejects or passes. -/
theorem exists_move_of_ksCheck (hat : s.At .ksCheck) : ∃ t, Move s t := by
  rcases Nat.lt_or_ge s.io.din.length s.operandLen with hshort | hdin
  · exact ⟨_, .ksCheckWaits hat hshort⟩
  · by_cases herr : initErrors s.latch.klen.toNat s.latch.nlen.toNat = 0#3
    · exact ⟨_, .ksCheckPasses hat hdin herr⟩
    · exact ⟨_, .ksCheckFails hat hdin herr⟩

/-- BLK_XOR waits for its input, sends its block, or has sent it. -/
theorem exists_move_of_blkXor (hat : s.At .blkXor) : ∃ t, Move s t := by
  cases hsent : s.xorSent with
  | true => exact ⟨_, .blkXorSent hat hsent⟩
  | false =>
    rcases Nat.lt_or_ge s.io.din.length s.blockLen with hshort | hdin
    · exact ⟨_, .blkXorWaits hat hsent hshort⟩
    · exact ⟨_, .blkXorSends hat hsent hdin⟩

/-- BLK_NEXT loops or ends. -/
theorem exists_move_of_blkNext (hat : s.At .blkNext) : ∃ t, Move s t := by
  by_cases hmore : s.off.toNat + s.blockLen < s.latch.len.toNat
  · exact ⟨_, .blkNextLoops hat hmore⟩
  · exact ⟨_, .blkNextEnds hat hmore⟩

/-- An idle engine waits, reports an illegal word or accepts a command. -/
theorem exists_move_of_idle (hat : s.At .idle) : ∃ t, Move s t := by
  cases hcmd : s.io.cmd with
  | nil => exact ⟨_, .idleWaits hat hcmd⟩
  | cons cw rest =>
    cases hdecode : decode (.cmd64 cw) with
    | error r => exact ⟨_, .illegal hat hcmd hdecode⟩
    | ok i =>
      have hacc : s.Accepts i rest := ⟨hat, cw, hcmd, hdecode⟩
      obtain rfl | rfl | rfl := decodeCommand_cases hdecode
      · exact ⟨_, .initAccepted hacc⟩
      · by_cases hlen : BitVec.ofNat 32 (cwArg cw).toNat = 0#32
        · exact ⟨_, .emptyAccepted hacc hlen⟩
        · exact ⟨_, .processAccepted hacc hlen⟩
      · exact ⟨_, .resetAccepted hacc⟩

/-- From every state there is a move: in each phase one of its cases applies. -/
theorem exists_move (s : State) : ∃ t, Move s t := by
  cases hrst : s.io.rst with
  | true => exact ⟨_, .reset hrst⟩
  | false =>
    cases hph : s.seq.ph with
    | idle => exact exists_move_of_idle ⟨hrst, hph⟩
    | ksCheck => exact exists_move_of_ksCheck ⟨hrst, hph⟩
    | ksPack => exact ⟨_, .ksPack ⟨hrst, hph⟩⟩
    | ksNonce => exact ⟨_, .ksNonce ⟨hrst, hph⟩⟩
    | ksDiffuse => exact ⟨_, .ksDiffuse ⟨hrst, hph⟩⟩
    | ksCommit => exact ⟨_, .ksCommit ⟨hrst, hph⟩⟩
    | blkLoad => exact ⟨_, .blkLoad ⟨hrst, hph⟩⟩
    | blkInject => exact ⟨_, .blkInject ⟨hrst, hph⟩⟩
    | blkCol => exact ⟨_, .blkCol ⟨hrst, hph⟩⟩
    | blkDiag => exact ⟨_, .blkDiag ⟨hrst, hph⟩⟩
    | blkXor => exact exists_move_of_blkXor ⟨hrst, hph⟩
    | blkCtrinc => exact ⟨_, .blkCtrinc ⟨hrst, hph⟩⟩
    | blkRatchet => exact ⟨_, .blkRatchet ⟨hrst, hph⟩⟩
    | blkNext => exact exists_move_of_blkNext ⟨hrst, hph⟩
    | rstClear => exact ⟨_, .rstClear ⟨hrst, hph⟩⟩

/-- What a step can do, said once: `step` is a function, and every state has a move. -/
theorem step_eq_next_iff : step s = .next t ↔ Move s t := by
  refine ⟨fun h => ?_, Move.step_eq_next⟩
  obtain ⟨u, hmove⟩ := exists_move s
  obtain rfl : u = t := Host.Outcome.next.inj (hmove.step_eq_next.symm.trans h)
  exact hmove

end Sys2Proof.Machine
end

section
/-! Settlements about the step. -/

namespace Sys2Proof.Machine

/-- Settles O6: every state has a move, and each move is what `step` does. -/
theorem everyStepAnswersNext : Obligations.EveryStepAnswersNext := fun s =>
  (exists_move s).imp fun _ => Move.step_eq_next

/-- Settles O5: the phase's code, or the word at the port, names the instruction. -/
theorem stepRunsDecodedInstruction : Obligations.StepRunsDecodedInstruction := by
  refine ⟨fun s i hrst hdecode => ?busy, fun s cw rest i hrst hph hcmd hdecode => ?idle⟩
  case busy => exact step_of_microOp ⟨hrst, rfl⟩ (congrArg Except.toOption hdecode)
  case idle => exact step_of_accepts ⟨⟨hrst, hph⟩, cw, hcmd, hdecode⟩

/-- Settles O10: the state is one the step leaves as it is. -/
theorem idleEngineWaits : Obligations.IdleEngineWaits := fun _ k hrst hph hcmd =>
  runs_of_fixed (Move.idleWaits ⟨hrst, hph⟩ hcmd).step_eq_next k

/-- Settles O30: both waits are moves to the state itself. -/
theorem engineWaitsForInputForEver : Obligations.EngineWaitsForInputForEver := by
  rintro s k hrst (⟨hph, hdin⟩ | ⟨hph, hsent, hdin⟩)
  · exact runs_of_fixed (Move.ksCheckWaits ⟨hrst, hph⟩ hdin).step_eq_next k
  · exact runs_of_fixed (Move.blkXorWaits ⟨hrst, hph⟩ hsent hdin).step_eq_next k

end Sys2Proof.Machine
end

section
/-! Where the sequencer's positions stand: what `nextWord` and `nextRound` lead to. -/

namespace Sys2Proof.Machine

/-- The position after a word, with what is known of the word in each case (R117, R149). -/
theorem nextWord_mem_of_bound {P : Seq → Prop} {q done : Seq} {ph : Phase}
    (hword : q.i.val < 15 → P ⟨ph, q.r, q.i + 1⟩) (hdone : ¬ q.i.val < 15 → P done) : P (nextWord q ph done) := by
  rw [nextWord]
  split
  · exact hword ‹_›
  · exact hdone ‹_›

/-- The position after a word is the next word of the phase or the end of the loop. -/
theorem nextWord_mem {P : Seq → Prop} {q done : Seq} {ph : Phase} (hword : P ⟨ph, q.r, q.i + 1⟩) (hdone : P done) :
    P (nextWord q ph done) :=
  nextWord_mem_of_bound (fun _ => hword) fun _ => hdone

/-- The position after a word inside rounds is the next word, the beginning of the next round, or the end (R117,
R149). -/
theorem nextRound_mem {P : Seq → Prop} {q done : Seq} {ph again : Phase} {last : Nat} (hword : P ⟨ph, q.r, q.i + 1⟩)
    (hround : q.r.val < last → P ⟨again, q.r + 1, 0⟩) (hdone : P done) : P (nextRound q ph again last done) := by
  rw [nextRound]
  split_ifs with hi hr
  · exact hword
  · exact hround hr
  · exact hdone

/-- Every phase may stand at its first position. -/
theorem legal_first (ph : Phase) : (⟨ph, 0, 0⟩ : Seq).Legal where
  once _ := ⟨rfl, rfl⟩
  wordsOnly _ := rfl
  nonce _ := Nat.zero_le 3

/-- A phase that runs for every word may stand at each of them, in the round it is in. -/
theorem Seq.Legal.next_word {q : Seq} (h : q.Legal) (honce : q.ph.once = false) (i : Index) :
    (⟨q.ph, q.r, i⟩ : Seq).Legal where
  once hph := absurd (hph.symm.trans honce) Bool.noConfusion
  wordsOnly := h.wordsOnly
  nonce := h.nonce

/-- A phase with twenty rounds may stand anywhere. -/
theorem legal_of_rounds {ph : Phase} (r : Fin 20) (i : Index) (honce : ph.once = false) (hwords : ph.wordsOnly = false)
    (hnonce : ph ≠ .ksNonce) : (⟨ph, r, i⟩ : Seq).Legal where
  once hph := absurd (hph.symm.trans honce) Bool.noConfusion
  wordsOnly hph := absurd (hph.symm.trans hwords) Bool.noConfusion
  nonce hph := absurd hph hnonce

/-- KS_NONCE may stand at its next round, as long as there is one. -/
theorem legal_ksNonce_round {r : Fin 20} (h : r.val < 3) : (⟨.ksNonce, r + 1, 0⟩ : Seq).Legal where
  once := Bool.noConfusion
  wordsOnly := Bool.noConfusion
  nonce _ := by
    have hval : (r + 1).val = (r.val + 1) % 20 := Fin.val_add r 1
    rw [hval]
    omega

end Sys2Proof.Machine
end

section
/-! The invariant, by the command in flight. -/

namespace Sys2Proof.Machine

variable {s t : State}

/-- The phases of INIT that KS_CHECK lets through are phases of INIT. -/
theorem Phase.ofInit_of_afterCheck {ph : Phase} (h : ph.afterCheck = true) : ph.ofInit = true := by
  cases ph <;> first | rfl | exact h

/-- A phase of INIT is none of PROCESS or RESET. -/
theorem Phase.not_ofProcess_of_ofInit {ph : Phase} (h : ph.ofInit = true) :
    ph.ofProcess = false ∧ ph ≠ .rstClear ∧ ph ≠ .blkXor := by
  cases ph <;> simp_all [Phase.ofInit, Phase.ofProcess]

/-- A phase of PROCESS is none of INIT or RESET. -/
theorem Phase.not_ofInit_of_ofProcess {ph : Phase} (h : ph.ofProcess = true) :
    ph.ofInit = false ∧ ph.afterCheck = false ∧ ph ≠ .rstClear := by
  cases ph <;> simp_all [Phase.ofInit, Phase.afterCheck, Phase.ofProcess]

/-- Outside BLK_XOR nothing is pending on DOUT (entry 7). -/
theorem State.Inv.quiet (h : s.Inv) (hph : s.seq.ph ≠ .blkXor) : s.xorSent = false ∧ s.io.dout = [] := by
  have hsent : ¬ s.xorSent = true := fun hs => hph (h.sent hs)
  exact ⟨Bool.eq_false_of_not_eq_true hsent, by_contra fun hd => hsent (h.pending hd)⟩

/-- At rest the invariant asks only that nothing is pending and that ERR is a value of R170. -/
theorem inv_at_rest (hseq : s.seq = Seq.idle) (hquiet : s.xorSent = false ∧ s.io.dout = []) (herr : s.err.toNat ≤ 4) :
    s.Inv where
  seqLegal := by
    rw [hseq]
    exact legal_first .idle
  opInit h := by simp [hseq, Seq.idle, Phase.ofInit] at h
  opProcess h := by simp [hseq, Seq.idle, Phase.ofProcess] at h
  opReset h := by simp [hseq, Seq.idle] at h
  checked h := by simp [hseq, Seq.idle, Phase.afterCheck] at h
  offset h := by simp [hseq, Seq.idle, Phase.ofProcess] at h
  pending h := absurd hquiet.2 h
  sent h := absurd (h.symm.trans hquiet.1) Bool.noConfusion
  errLegal := herr

/-- What the invariant asks in a phase of INIT. -/
theorem inv_in_init (hph : s.seq.ph.ofInit = true) (hlegal : s.seq.Legal) (hop : s.latch.op = .init)
    (hchecked : s.seq.ph.afterCheck = true → s.latch.klen ≠ 0#32 ∧ s.latch.nlen = 16#8)
    (hquiet : s.xorSent = false ∧ s.io.dout = []) (herr : s.err.toNat ≤ 4) : s.Inv := by
  obtain ⟨hnotProcess, hnotReset, -⟩ := Phase.not_ofProcess_of_ofInit hph
  exact
    { seqLegal := hlegal
      opInit := fun _ => hop
      opProcess := fun h => absurd (h.symm.trans hnotProcess) Bool.noConfusion
      opReset := fun h => absurd h hnotReset
      checked := hchecked
      offset := fun h => absurd (h.symm.trans hnotProcess) Bool.noConfusion
      pending := fun h => absurd hquiet.2 h
      sent := fun h => absurd (h.symm.trans hquiet.1) Bool.noConfusion
      errLegal := herr }

/-- What the invariant asks in a phase of PROCESS. -/
theorem inv_in_process (hph : s.seq.ph.ofProcess = true) (hlegal : s.seq.Legal) (hop : s.latch.op = .process)
    (hoffset : s.off.toNat < s.latch.len.toNat ∧ s.off.toNat % 64 = 0)
    (hpending : s.io.dout ≠ [] → s.xorSent = true) (hsent : s.xorSent = true → s.seq.ph = .blkXor)
    (herr : s.err.toNat ≤ 4) : s.Inv := by
  obtain ⟨hnotInit, hnotChecked, hnotReset⟩ := Phase.not_ofInit_of_ofProcess hph
  exact
    { seqLegal := hlegal
      opInit := fun h => absurd (h.symm.trans hnotInit) Bool.noConfusion
      opProcess := fun _ => hop
      opReset := fun h => absurd h hnotReset
      checked := fun h => absurd (h.symm.trans hnotChecked) Bool.noConfusion
      offset := fun _ => hoffset
      pending := hpending
      sent := hsent
      errLegal := herr }

/-- What the invariant asks in RST_CLEAR. -/
theorem inv_in_reset (hseq : s.seq = ⟨.rstClear, 0, 0⟩) (hop : s.latch.op = .reset)
    (hquiet : s.xorSent = false ∧ s.io.dout = []) (herr : s.err.toNat ≤ 4) : s.Inv where
  seqLegal := by
    rw [hseq]
    exact legal_first .rstClear
  opInit h := by simp [hseq, Phase.ofInit] at h
  opProcess h := by simp [hseq, Phase.ofProcess] at h
  opReset _ := hop
  checked h := by simp [hseq, Phase.afterCheck] at h
  offset h := by simp [hseq, Phase.ofProcess] at h
  pending h := absurd hquiet.2 h
  sent h := absurd (h.symm.trans hquiet.1) Bool.noConfusion
  errLegal := herr

/-- From one phase of INIT behind KS_CHECK to another, W and SEQ being all that is written. -/
theorem State.Inv.to_afterCheck (h : s.Inv) (hph : s.seq.ph.afterCheck = true) (w : Words) {q : Seq}
    (hq : q.Legal ∧ q.ph.afterCheck = true) : ({ s with W := w, seq := q } : State).Inv := by
  have hinit := Phase.ofInit_of_afterCheck hph
  obtain ⟨-, -, hnotXor⟩ := Phase.not_ofProcess_of_ofInit hinit
  exact inv_in_init (Phase.ofInit_of_afterCheck hq.2) hq.1 (h.opInit hinit) (fun _ => h.checked hph) (h.quiet hnotXor)
    h.errLegal

/-- From one phase of PROCESS other than BLK_XOR to another, OFF, the latches and the streams being left alone. -/
theorem State.Inv.to_ofProcess (h : s.Inv) (hph : s.seq.ph.ofProcess = true) (hnotXor : s.seq.ph ≠ .blkXor)
    (v w : Words) (lo hi : Word) {q : Seq} (hq : q.Legal ∧ q.ph.ofProcess = true) :
    ({ s with S := v, ctrLo := lo, ctrHi := hi, W := w, seq := q } : State).Inv := by
  obtain ⟨hsent, hdout⟩ := h.quiet hnotXor
  exact inv_in_process hq.2 hq.1 (h.opProcess hph) (h.offset hph) (fun hd => absurd hdout hd)
    (fun hs => absurd (hs.symm.trans hsent) Bool.noConfusion) h.errLegal

/-- BLK_XOR's end keeps the invariant from any state whose sequencer is at BLK_XOR: whether it leaves the phase or waits
in it, bytes are pending exactly if it waits (R200, entry 7). -/
theorem inv_leaveXor (hph : s.seq.ph = .blkXor) (hlegal : s.seq.Legal) (hop : s.latch.op = .process)
    (hoffset : s.off.toNat < s.latch.len.toNat ∧ s.off.toNat % 64 = 0) (herr : s.err.toNat ≤ 4) :
    (leaveXor s).Inv := by
  obtain ⟨u, rfl, hdout, hleave⟩ | ⟨u, rfl, -, hleave⟩ := leaveXor_cases s <;>
    rw [hleave, (hostTakesIfTaking_frame s).1]
  · exact inv_in_process rfl (legal_first .blkCtrinc) hop hoffset (fun hd => absurd hdout hd) Bool.noConfusion herr
  · exact inv_in_process (congrArg Phase.ofProcess hph) hlegal hop hoffset (fun _ => rfl) (fun _ => hph) herr

/-- The offset of the next block is inside the buffer and a multiple of 64 (R55, R141). -/
theorem off_add_blockLen_aligned (hoff : s.off.toNat < s.latch.len.toNat ∧ s.off.toNat % 64 = 0)
    (hmore : s.off.toNat + s.blockLen < s.latch.len.toNat) :
    (s.off + BitVec.ofNat 32 s.blockLen).toNat < s.latch.len.toNat ∧
      (s.off + BitVec.ofNat 32 s.blockLen).toNat % 64 = 0 := by
  have hfull : s.blockLen = 64 := by
    simp only [State.blockLen, Config.blockBytes] at hmore ⊢
    omega
  rw [off_add_blockLen_toNat hoff.1]
  omega

/-- An INIT that KS_CHECK lets through has a key and a nonce of 16 bytes (R111). -/
theorem checked_of_initErrors {l : Latch} (h : initErrors l.klen.toNat l.nlen.toNat = 0#3) :
    l.klen ≠ 0#32 ∧ l.nlen = 16#8 := by
  obtain ⟨hklen, hnlen⟩ := (initErrors_eq_zero _ _).mp h
  exact ⟨fun hzero => hklen ((klen_toNat_eq_zero_iff l).mpr hzero), (nlen_toNat_eq_sixteen_iff l).mp hnlen⟩

/-- A phase is not BLK_XOR when it is another one. -/
theorem State.At.ph_ne {ph other : Phase} (hat : s.At ph) (hne : ph ≠ other) : s.seq.ph ≠ other := hat.2 ▸ hne

/-- The next word of a phase that runs for every word is a legal position of it. -/
theorem State.At.legal_next_word {ph : Phase} (hat : s.At ph) (h : s.Inv) (honce : ph.once = false) :
    (⟨ph, s.seq.r, s.seq.i + 1⟩ : Seq).Legal := by
  obtain ⟨-, rfl⟩ := hat
  exact h.seqLegal.next_word honce _

/-- Every move keeps the invariant: it stays in the command in flight, begins one, or comes to rest. -/
theorem Move.keeps_inv (hmove : Move s t) (h : s.Inv) : t.Inv := by
  cases hmove with
  | reset => exact inv_at_rest rfl ⟨rfl, rfl⟩ (Nat.zero_le 4)
  | idleWaits | ksCheckWaits | blkXorWaits => exact h
  | illegal hat =>
    rw [illegalCommand_eq]
    exact inv_at_rest rfl (h.quiet (hat.ph_ne nofun)) (show errIllegalCmd.toNat ≤ 4 by decide)
  | initAccepted hacc =>
    exact inv_in_init rfl (legal_first .ksCheck) rfl Bool.noConfusion (h.quiet (hacc.1.ph_ne nofun)) h.errLegal
  | emptyAccepted hacc => exact inv_at_rest rfl (h.quiet (hacc.1.ph_ne nofun)) (Nat.zero_le 4)
  | @processAccepted len _ hacc hlen =>
    obtain ⟨hsent, hdout⟩ := h.quiet (hacc.1.ph_ne nofun)
    have hpos : 0 < (BitVec.ofNat 32 len).toNat := Nat.pos_of_ne_zero fun hz => hlen (BitVec.eq_of_toNat_eq hz)
    exact inv_in_process rfl (legal_first .blkLoad) rfl ⟨hpos, rfl⟩ (fun hd => absurd hdout hd)
      (fun hs => absurd (hs.symm.trans hsent) Bool.noConfusion) h.errLegal
  | resetAccepted hacc => exact inv_in_reset rfl rfl (h.quiet (hacc.1.ph_ne nofun)) h.errLegal
  | ksCheckFails hat =>
    rw [raiseErr_eq, takeOperands_frame]
    exact inv_at_rest rfl (h.quiet (hat.ph_ne nofun)) (Nat.le_succ_of_le (initErrors_le _ _))
  | ksCheckPasses hat _ herr =>
    rw [takeOperands_frame]
    exact inv_in_init rfl (legal_first .ksPack) (h.opInit (congrArg Phase.ofInit hat.2))
      (fun _ => checked_of_initErrors herr) (h.quiet (hat.ph_ne nofun)) h.errLegal
  | ksPack hat =>
    exact h.to_afterCheck (congrArg Phase.afterCheck hat.2) _
      (nextWord_mem (P := fun q => q.Legal ∧ q.ph.afterCheck = true) ⟨hat.legal_next_word h rfl, rfl⟩
        ⟨legal_first .ksNonce, rfl⟩)
  | ksNonce hat =>
    exact h.to_afterCheck (congrArg Phase.afterCheck hat.2) _
      (nextRound_mem (P := fun q => q.Legal ∧ q.ph.afterCheck = true) ⟨hat.legal_next_word h rfl, rfl⟩
        (fun hr => ⟨legal_ksNonce_round hr, rfl⟩) ⟨legal_first .ksDiffuse, rfl⟩)
  | ksDiffuse hat =>
    exact h.to_afterCheck (congrArg Phase.afterCheck hat.2) _
      (nextRound_mem (P := fun q => q.Legal ∧ q.ph.afterCheck = true) ⟨hat.legal_next_word h rfl, rfl⟩
        (fun _ => ⟨legal_of_rounds _ _ rfl rfl nofun, rfl⟩) ⟨legal_first .ksCommit, rfl⟩)
  | ksCommit hat => exact inv_at_rest rfl (h.quiet (hat.ph_ne nofun)) (Nat.zero_le 4)
  | blkLoad hat =>
    exact h.to_ofProcess (congrArg Phase.ofProcess hat.2) (hat.ph_ne nofun) _ _ _ _ ⟨legal_first .blkInject, rfl⟩
  | blkInject hat =>
    exact h.to_ofProcess (congrArg Phase.ofProcess hat.2) (hat.ph_ne nofun) _ _ _ _
      (nextWord_mem (P := fun q => q.Legal ∧ q.ph.ofProcess = true) ⟨hat.legal_next_word h rfl, rfl⟩
        ⟨legal_first .blkCol, rfl⟩)
  | blkCol hat =>
    exact h.to_ofProcess (congrArg Phase.ofProcess hat.2) (hat.ph_ne nofun) _ _ _ _
      (nextWord_mem (P := fun q => q.Legal ∧ q.ph.ofProcess = true) ⟨hat.legal_next_word h rfl, rfl⟩
        ⟨legal_of_rounds _ _ rfl rfl nofun, rfl⟩)
  | blkDiag hat =>
    exact h.to_ofProcess (congrArg Phase.ofProcess hat.2) (hat.ph_ne nofun) _ _ _ _
      (nextRound_mem (P := fun q => q.Legal ∧ q.ph.ofProcess = true) ⟨hat.legal_next_word h rfl, rfl⟩
        (fun _ => ⟨legal_of_rounds _ _ rfl rfl nofun, rfl⟩) ⟨legal_first .blkXor, rfl⟩)
  | blkXorSends hat | blkXorSent hat =>
    have hph := congrArg Phase.ofProcess hat.2
    exact inv_leaveXor hat.2 h.seqLegal (h.opProcess hph) (h.offset hph) h.errLegal
  | blkCtrinc hat =>
    exact h.to_ofProcess (congrArg Phase.ofProcess hat.2) (hat.ph_ne nofun) _ _ _ _ ⟨legal_first .blkRatchet, rfl⟩
  | blkRatchet hat =>
    exact h.to_ofProcess (congrArg Phase.ofProcess hat.2) (hat.ph_ne nofun) _ _ _ _
      (nextWord_mem (P := fun q => q.Legal ∧ q.ph.ofProcess = true) ⟨hat.legal_next_word h rfl, rfl⟩
        ⟨legal_first .blkNext, rfl⟩)
  | blkNextLoops hat hmore =>
    have hph := congrArg Phase.ofProcess hat.2
    obtain ⟨hsent, hdout⟩ := h.quiet (hat.ph_ne nofun)
    exact inv_in_process rfl (legal_first .blkLoad) (h.opProcess hph) (off_add_blockLen_aligned (h.offset hph) hmore)
      (fun hd => absurd hdout hd) (fun hs => absurd (hs.symm.trans hsent) Bool.noConfusion) h.errLegal
  | blkNextEnds hat => exact inv_at_rest rfl (h.quiet (hat.ph_ne nofun)) (Nat.zero_le 4)
  | rstClear hat => exact inv_at_rest rfl (h.quiet (hat.ph_ne nofun)) (Nat.zero_le 4)

end Sys2Proof.Machine
end

section
/-! Settlements about the invariant. -/

namespace Sys2Proof.Machine

/-- Settles O41: a step is a move, and every move keeps the invariant. -/
theorem stepKeepsInvariant : Obligations.StepKeepsInvariant := fun _ _ hinv hstep =>
  (step_eq_next_iff.mp hstep).keeps_inv hinv

end Sys2Proof.Machine
end

section
/-! What a host move or a step leaves of the invariant and of each register. -/

namespace Sys2Proof.Machine

variable {s t : State}

/-- A move of the host that leaves the engine's registers keeps the invariant as long as it adds nothing to DOUT. -/
theorem State.Inv.with_io (h : s.Inv) {io : Io} (hdout : io.dout ≠ [] → s.io.dout ≠ []) :
    ({ s with io := io } : State).Inv where
  seqLegal := h.seqLegal
  opInit := h.opInit
  opProcess := h.opProcess
  opReset := h.opReset
  checked := h.checked
  offset := h.offset
  pending hd := h.pending (hdout hd)
  sent := h.sent
  errLegal := h.errLegal

/-- Every move of the host keeps the invariant: it leaves DOUT alone, takes from it, or empties it (R11, R190). -/
theorem State.Inv.hostAct (h : s.Inv) (a : HostAction) : (hostAct a s).Inv := by
  cases a with
  | present | supply | setTaking => exact h.with_io id
  | take k =>
    refine h.with_io fun hd hempty => hd ?_
    rw [hempty, List.drop_nil]
  | setRst on =>
    cases on with
    | true => exact inv_at_rest rfl ⟨rfl, rfl⟩ (Nat.zero_le 4)
    | false => exact h.with_io id

/-- The end of BLK_XOR leaves the persistent state alone (R138). -/
@[simp] theorem leaveXor_arch (s : State) : (leaveXor s).arch = s.arch := by
  obtain ⟨_, rfl, -, hleave⟩ | ⟨_, rfl, -, hleave⟩ := leaveXor_cases s <;>
    rw [hleave, (hostTakesIfTaking_frame s).1] <;> simp only [State.arch]

/-- Taking the operands leaves the persistent state alone (R111). -/
@[simp] theorem takeOperands_arch (s : State) : (takeOperands s).arch = s.arch := by
  rw [takeOperands_frame]
  simp only [State.arch]

/-- An error writes ERR only of the persistent state (R174). -/
theorem raiseErr_arch (e : BitVec 3) (s : State) : (raiseErr e s).arch = { s.arch with err := e } := rfl

/-- What a step does to the persistent state (R20, R22, R30, R31, R35). -/
inductive ArchMove (s t : State) : Prop
  /-- It stays. -/
  | kept (harch : t.arch = s.arch)
  /-- RST is asserted. -/
  | reset (hrst : s.io.rst = true) (ht : t = hardwareReset s)
  /-- A command completes with nothing but ERR to write. -/
  | ended (e : BitVec 3) (hseq : t.seq = Seq.idle) (harch : t.arch = { s.arch with err := e })
  /-- INIT commits. -/
  | committed (hph : s.seq.ph = .ksCommit) (hseq : t.seq = Seq.idle) (harch : t.arch = ⟨s.W, 0#32, 0#32, true, 0#3⟩)
  /-- The counter advances. -/
  | counted (hph : s.seq.ph = .blkCtrinc)
      (harch : t.arch = { s.arch with ctrLo := ctrNextLo s.ctrLo, ctrHi := ctrNextHi s.ctrLo s.ctrHi })
  /-- A word of S is ratcheted. -/
  | ratcheted (hph : s.seq.ph = .blkRatchet)
      (harch : t.arch = { s.arch with S := upd s.S s.seq.i s.W[s.seq.i] Config.colOffs })
  /-- RESET clears it. -/
  | cleared (hph : s.seq.ph = .rstClear) (hseq : t.seq = Seq.idle) (harch : t.arch = resetCommand s.arch)

/-- Which moves write the persistent state, and what: every other one leaves it alone. -/
theorem Move.archMove (h : Move s t) : ArchMove s t := by
  cases h with
  | reset hrst => exact .reset hrst rfl
  | illegal => exact .ended errIllegalCmd rfl (by simp [State.arch, takeCommand, illegalCommand_eq])
  | ksCheckFails =>
    refine .ended (initErrors s.latch.klen.toNat s.latch.nlen.toNat) rfl ?_
    rw [raiseErr_arch, takeOperands_arch]
  | emptyAccepted | blkNextEnds => exact .ended 0#3 rfl (by simp [State.arch, takeCommand])
  | ksCommit hat => exact .committed hat.2 rfl rfl
  | blkCtrinc hat => exact .counted hat.2 rfl
  | blkRatchet hat => exact .ratcheted hat.2 rfl
  | rstClear hat => exact .cleared hat.2 rfl rfl
  | blkXorSends | blkXorSent => exact .kept (leaveXor_arch _)
  | ksCheckPasses =>
    rw [takeOperands_frame]
    exact .kept (by simp only [State.arch])
  | idleWaits | initAccepted | processAccepted | resetAccepted | ksCheckWaits | ksPack | ksNonce | ksDiffuse | blkLoad
  | blkInject | blkCol | blkDiag | blkXorWaits | blkNextLoops => exact .kept rfl

end Sys2Proof.Machine
end

section
/-! Settlements about the writers of the persistent state. -/

namespace Sys2Proof.Machine

/-- Settles O40: reset is at rest with nothing pending, and no move of the host writes a register short of RST. -/
theorem invariantAtResetAndUnderHostMoves : Obligations.InvariantAtResetAndUnderHostMoves :=
  ⟨inv_at_rest rfl ⟨rfl, rfl⟩ (Nat.zero_le 4), fun a _ h => h.hostAct a⟩

/-- Settles O42: of the moves that write the persistent state, these write S. -/
theorem onlyThreePhasesAndRstWriteS : Obligations.OnlyThreePhasesAndRstWriteS := by
  intro s t hstep hS
  cases (step_eq_next_iff.mp hstep).archMove with
  | kept harch | ended _ _ harch | counted _ harch => exact absurd (congrArg Arch.S harch) hS
  | reset hrst => exact .inl hrst
  | committed hph => exact .inr (.inl hph)
  | ratcheted hph => exact .inr (.inr (.inl hph))
  | cleared hph => exact .inr (.inr (.inr hph))

/-- Settles O43: of the moves that write the persistent state, the end of a command and the ratchet leave CTR and KEYED
alone, and the counter leaves KEYED alone. -/
theorem writersOfCounterAndKeyed : Obligations.WritersOfCounterAndKeyed := by
  intro s t hstep
  cases (step_eq_next_iff.mp hstep).archMove with
  | kept harch | ended _ _ harch | ratcheted _ harch =>
    have hlo : t.ctrLo = s.ctrLo := congrArg Arch.ctrLo harch
    have hhi : t.ctrHi = s.ctrHi := congrArg Arch.ctrHi harch
    have hkeyed : t.keyed = s.keyed := congrArg Arch.keyed harch
    simp_all
  | counted hph harch =>
    have hkeyed : t.keyed = s.keyed := congrArg Arch.keyed harch
    simp_all
  | committed hph _ harch =>
    have hkeyed : t.keyed = true := congrArg Arch.keyed harch
    simp [hph, hkeyed]
  | reset hrst ht =>
    have hkeyed : t.keyed = false := by rw [ht, hardwareReset_eq]; rfl
    simp [hrst, hkeyed]
  | cleared hph _ harch =>
    have hkeyed : t.keyed = false := congrArg Arch.keyed harch
    simp [hph, hkeyed]

/-- Settles O44: the counter increment and the ratchet leave ERR alone; every other writer comes to rest. -/
theorem errChangesOnlyAtCompletion : Obligations.ErrChangesOnlyAtCompletion := by
  intro s t hstep herr
  cases (step_eq_next_iff.mp hstep).archMove with
  | kept harch | counted _ harch | ratcheted _ harch => exact absurd (congrArg Arch.err harch) herr
  | reset _ ht => rw [ht]; rfl
  | ended _ hseq | committed _ hseq | cleared _ hseq => exact hseq

end Sys2Proof.Machine
end

section
/-! The end of BLK_XOR: the host takes what is pending, or the engine waits. -/

namespace Sys2Proof.Machine

variable {s : State}

/-- The channels after a host that is taking has taken everything pending on DOUT (entry 8). -/
def Io.drained (io : Io) : Io := if io.taking then { io with dout := [], taken := io.taken ++ io.dout } else io

/-- There is nothing to take from an empty DOUT. -/
theorem Io.drained_of_dout_eq_nil {io : Io} (h : io.dout = []) : io.drained = io := by
  obtain ⟨cmd, din, dout, taking, taken, rst⟩ := io
  cases taking <;> simp_all [Io.drained]

/-- The host's taking is a change of the channels only. -/
theorem hostTakesIfTaking_eq (s : State) : hostTakesIfTaking s = { s with io := s.io.drained } := by
  rw [hostTakesIfTaking, Io.drained]
  split
  · simp [hostTakes, State.setIo]
  · rfl

/-- The end of BLK_XOR writes the channels, SEQ and the flag of entry 7, by what is pending on DOUT. -/
theorem leaveXor_eq (s : State) :
    leaveXor s = { s with
      io := s.io.drained
      xorSent := decide (s.io.drained.dout ≠ [])
      seq := if s.io.drained.dout = [] then ⟨.blkCtrinc, 0, 0⟩ else s.seq } := by
  obtain ⟨_, rfl, hdout, hleave⟩ | ⟨_, rfl, hdout, hleave⟩ := leaveXor_cases s <;>
    simp_all [hostTakesIfTaking_eq]

/-- Bytes pending for a host that is not taking: the engine waits in BLK_XOR (R200). -/
theorem leaveXor_of_pending (htaking : s.io.taking = false) (hdout : s.io.dout ≠ []) :
    leaveXor s = { s with xorSent := true } := by
  simp [leaveXor_eq, Io.drained, htaking, hdout]

/-- Nothing pending: BLK_XOR ends, whether the host is taking or not (R200). -/
theorem leaveXor_of_nothing_pending (hdout : s.io.dout = []) :
    leaveXor s = { s with xorSent := false, seq := ⟨.blkCtrinc, 0, 0⟩ } := by
  rw [leaveXor_eq, Io.drained_of_dout_eq_nil hdout, hdout]
  rfl

/-- With bytes pending for a host that is not taking, nothing changes for as long as the host does nothing (R200). -/
theorem exec_blkXor_of_pending (hsent : s.xorSent = true) (htaking : s.io.taking = false) (hdout : s.io.dout ≠ []) :
    exec .blkXor s = .next s := by
  rw [exec_blkXor_of_sent hsent, leaveXor_of_pending htaking hdout, ← hsent]

/-- So a run leaves it waiting, however long. -/
theorem runs_of_pending (hat : s.At .blkXor) (hsent : s.xorSent = true) (htaking : s.io.taking = false)
    (hdout : s.io.dout ≠ []) (k : Nat) : runs k s = .next s :=
  runs_of_fixed ((step_of_microOp hat rfl).trans (exec_blkXor_of_pending hsent htaking hdout)) k

end Sys2Proof.Machine
end

section
/-! Settlement about a host that does not take. -/

namespace Sys2Proof.Machine

/-- Settles O29: the block goes out once and is then pending; what is pending stays until the host takes it. -/
theorem blkXorWaitsForTheHostToTake : Obligations.BlkXorWaitsForTheHostToTake := by
  refine ⟨?notYetSent, ?pending, ?takingAgain, ?nothingPending⟩
  case notYetSent =>
    intro s hsent htaking hph hdin hpos
    have hout : s.io.dout ++ xorBytes (s.io.din.take s.blockLen) s.W ≠ [] := by
      refine List.append_ne_nil_of_right_ne_nil _ (List.ne_nil_of_length_pos ?_)
      rw [xorBytes_length, List.length_take]
      omega
    have hexec := exec_blkXor_of_supplied hsent hdin
    rw [leaveXor_of_pending (s := sendBlock s.blockLen s) htaking hout] at hexec
    refine ⟨_, hexec, rfl, rfl, rfl, rfl, fun hrst k => ?_⟩
    exact runs_of_pending (s := { sendBlock s.blockLen s with xorSent := true }) ⟨hrst, hph⟩ rfl htaking hout k
  case pending =>
    exact fun s hsent htaking hdout => ⟨exec_blkXor_of_pending hsent htaking hdout,
      fun hrst hph k => runs_of_pending ⟨hrst, hph⟩ hsent htaking hdout k⟩
  case takingAgain =>
    intro s hsent htaking
    exact ⟨_, (exec_blkXor_of_sent hsent).trans (congrArg _ (leaveXor_of_taking htaking)), rfl, rfl, rfl, rfl, rfl⟩
  case nothingPending =>
    intro s hsent hdout
    exact ⟨_, (exec_blkXor_of_sent hsent).trans (congrArg _ (leaveXor_of_nothing_pending hdout)), rfl, rfl, rfl⟩

end Sys2Proof.Machine
end

section
/-! Steps from states that differ in registers or bytes that the step does not read. -/

namespace Sys2Proof.Machine

variable {s t : State}

/-- KEYED and ERR with other values. -/
def State.withFlags (s : State) (b : Bool) (e : BitVec 3) : State := { s with keyed := b, err := e }

/-- The two states agree in all but KEYED and ERR. -/
def State.AgreesButFlags (t u : State) : Prop := u = { t with keyed := u.keyed, err := u.err }

/-- A move is a move from other values of KEYED and ERR too, to a state that differs in them only. -/
theorem Move.withFlags (h : Move s t) (b : Bool) (e : BitVec 3) :
    ∃ u, Move (s.withFlags b e) u ∧ t.AgreesButFlags u := by
  cases h with
  | reset hrst => exact ⟨_, .reset hrst, rfl⟩
  | idleWaits hat hcmd => exact ⟨_, .idleWaits hat hcmd, rfl⟩
  | illegal hat hcmd hdecode => exact ⟨_, .illegal hat hcmd hdecode, rfl⟩
  | initAccepted hacc => exact ⟨_, .initAccepted hacc, rfl⟩
  | emptyAccepted hacc hlen => exact ⟨_, .emptyAccepted hacc hlen, rfl⟩
  | processAccepted hacc hlen => exact ⟨_, .processAccepted hacc hlen, rfl⟩
  | resetAccepted hacc => exact ⟨_, .resetAccepted hacc, rfl⟩
  | ksCheckWaits hat hdin => exact ⟨_, .ksCheckWaits hat hdin, rfl⟩
  | ksCheckFails hat hdin herr => exact ⟨_, .ksCheckFails hat hdin herr, rfl⟩
  | ksCheckPasses hat hdin herr => exact ⟨_, .ksCheckPasses hat hdin herr, rfl⟩
  | ksPack hat => exact ⟨_, .ksPack hat, rfl⟩
  | ksNonce hat => exact ⟨_, .ksNonce hat, rfl⟩
  | ksDiffuse hat => exact ⟨_, .ksDiffuse hat, rfl⟩
  | ksCommit hat => exact ⟨_, .ksCommit hat, rfl⟩
  | blkLoad hat => exact ⟨_, .blkLoad hat, rfl⟩
  | blkInject hat => exact ⟨_, .blkInject hat, rfl⟩
  | blkCol hat => exact ⟨_, .blkCol hat, rfl⟩
  | blkDiag hat => exact ⟨_, .blkDiag hat, rfl⟩
  | blkXorWaits hat hsent hdin => exact ⟨_, .blkXorWaits hat hsent hdin, rfl⟩
  | blkXorSends hat hsent hdin =>
    refine ⟨_, .blkXorSends hat hsent hdin, ?_⟩
    rw [leaveXor_eq, leaveXor_eq]
    rfl
  | blkXorSent hat hsent =>
    refine ⟨_, .blkXorSent hat hsent, ?_⟩
    rw [leaveXor_eq, leaveXor_eq]
    rfl
  | blkCtrinc hat => exact ⟨_, .blkCtrinc hat, rfl⟩
  | blkRatchet hat => exact ⟨_, .blkRatchet hat, rfl⟩
  | blkNextLoops hat hmore => exact ⟨_, .blkNextLoops hat hmore, rfl⟩
  | blkNextEnds hat hdone => exact ⟨_, .blkNextEnds hat hdone, rfl⟩
  | rstClear hat => exact ⟨_, .rstClear hat, rfl⟩

/-- The channels of one engine are those of another up to the contents of the bytes that stream through it. -/
structure Io.SameShape (x y : Io) : Prop where
  frame : y = { x with din := y.din, dout := y.dout, taken := y.taken }
  din : y.din.length = x.din.length
  dout : y.dout.length = x.dout.length

/-- A host's taking keeps the channels of two engines alike. -/
theorem Io.SameShape.drained {x y : Io} (h : x.SameShape y) : x.drained.SameShape y.drained := by
  obtain ⟨hframe, hdin, hdout⟩ := h
  have htaking : y.taking = x.taking := by rw [hframe]
  rw [Io.drained, Io.drained, htaking]
  split
  · refine ⟨?_, hdin, rfl⟩
    rw [hframe]
  · exact ⟨hframe, hdin, hdout⟩

/-- Blocks of the same length leave the channels of two engines alike, whatever their keystream. -/
theorem Io.SameShape.send {x y : Io} (h : x.SameShape y) (n : Nat) (w : Words) :
    Io.SameShape { x with din := x.din.drop n, dout := x.dout ++ xorBytes (x.din.take n) w }
      { y with din := y.din.drop n, dout := y.dout ++ xorBytes (y.din.take n) w } where
  frame := by
    rw [h.frame]
  din := by simp [h.din]
  dout := by simp [h.din, h.dout]

/-- Whether anything is pending does not depend on the bytes. -/
theorem Io.SameShape.dout_eq_nil_iff {x y : Io} (h : x.SameShape y) : y.dout = [] ↔ x.dout = [] := by
  rw [← List.length_eq_zero_iff, ← List.length_eq_zero_iff, h.dout]

/-- The end of BLK_XOR does the same for channels that are alike. -/
theorem leaveXor_of_sameShape {io : Io} (h : s.io.SameShape io) :
    ∃ io', leaveXor { s with io := io } = { leaveXor s with io := io' } ∧ (leaveXor s).io.SameShape io' := by
  refine ⟨io.drained, ?_, ?_⟩
  · simp only [leaveXor_eq, ne_eq, h.drained.dout_eq_nil_iff]
  · rw [leaveXor_eq]
    exact h.drained

/-- In PROCESS, a move is a move of an engine whose channels are alike, to a state that differs in the channels only,
which are alike again (R131, R147). -/
theorem Move.of_sameShape (h : Move s t) (hrst : s.io.rst = false) (hph : s.seq.ph.ofProcess = true) {io : Io}
    (hio : s.io.SameShape io) :
    ∃ io', Move { s with io := io } { t with io := io' } ∧ t.io.SameShape io' := by
  have hreleased : io.rst = false := by rw [hio.frame]; exact hrst
  have hthere {ph : Phase} (hat : s.At ph) : State.At { s with io := io } ph := ⟨hreleased, hat.2⟩
  cases h with
  | reset hreset => exact absurd (hreset.symm.trans hrst) Bool.noConfusion
  | idleWaits hat | illegal hat | ksCheckWaits hat | ksCheckFails hat | ksCheckPasses hat | ksPack hat
  | ksNonce hat | ksDiffuse hat | ksCommit hat | rstClear hat => simp [hat.2, Phase.ofProcess] at hph
  | initAccepted hacc | emptyAccepted hacc | processAccepted hacc | resetAccepted hacc =>
    simp [hacc.1.2, Phase.ofProcess] at hph
  | blkLoad hat => exact ⟨io, .blkLoad (hthere hat), hio⟩
  | blkInject hat => exact ⟨io, .blkInject (hthere hat), hio⟩
  | blkCol hat => exact ⟨io, .blkCol (hthere hat), hio⟩
  | blkDiag hat => exact ⟨io, .blkDiag (hthere hat), hio⟩
  | blkXorWaits hat hsent hdin => exact ⟨io, .blkXorWaits (hthere hat) hsent (hio.din ▸ hdin), hio⟩
  | blkXorSends hat hsent hdin =>
    obtain ⟨io', hleave, hsame⟩ := leaveXor_of_sameShape (s := sendBlock s.blockLen s) (hio.send s.blockLen s.W)
    exact ⟨io', hleave ▸ .blkXorSends (hthere hat) hsent (hio.din ▸ hdin), hsame⟩
  | blkXorSent hat hsent =>
    obtain ⟨io', hleave, hsame⟩ := leaveXor_of_sameShape hio
    exact ⟨io', hleave ▸ .blkXorSent (hthere hat) hsent, hsame⟩
  | blkCtrinc hat => exact ⟨io, .blkCtrinc (hthere hat), hio⟩
  | blkRatchet hat => exact ⟨io, .blkRatchet (hthere hat), hio⟩
  | blkNextLoops hat hmore => exact ⟨io, .blkNextLoops (hthere hat) hmore, hio⟩
  | blkNextEnds hat hdone => exact ⟨io, .blkNextEnds (hthere hat) hdone, hio⟩

end Sys2Proof.Machine
end

section
/-! Settlements about what a step does not read. -/

namespace Sys2Proof.Machine

/-- Settles O45: each move of the one engine is the same move of the other. -/
theorem noStepReadsKeyedOrErr : Obligations.NoStepReadsKeyedOrErr := by
  intro s t b e hstep
  obtain ⟨u, hmove, hagrees⟩ := (step_eq_next_iff.mp hstep).withFlags b e
  exact ⟨u, hmove.step_eq_next, hagrees⟩

/-- Settles O46: the channels of the two engines are alike before the step and after it. -/
theorem processStateIgnoresTheData : Obligations.ProcessStateIgnoresTheData := by
  intro s t din dout taken hrst hph hdin hdout hstep
  obtain ⟨io, hmove, hframe, hdin', hdout'⟩ :=
    (step_eq_next_iff.mp hstep).of_sameShape hrst hph
      (io := { s.io with din := din, dout := dout, taken := taken }) ⟨rfl, hdin, hdout⟩
  exact ⟨_, hmove.step_eq_next, congrArg (fun io => { t with io := io }) hframe, hdin', hdout'⟩

end Sys2Proof.Machine
end

section
/-! Settlements about the beginning of the commands, hardware reset and STATUS. -/

namespace Sys2Proof.Machine

/-- A command at a busy engine is refused (R194, U3). -/
theorem acceptCommand_of_busy {s : State} (h : s.busy = true) (start : State → State) :
    acceptCommand s start = .refused .commandWhileBusy := if_pos h

/-- Settles O9: all three commands begin with `acceptCommand`. -/
theorem commandsAreRefusedWhileBusy : Obligations.CommandsAreRefusedWhileBusy := by
  intro s nlen klen len hbusy
  simp only [exec, execInit, execProcess, execReset, acceptCommand_of_busy hbusy, and_self]

/-- Settles O11: the fields of the reset state one by one. -/
theorem resetValues : Obligations.ResetValues :=
  ⟨getElem_zeroWords, rfl, rfl, rfl, rfl, rfl, rfl, rfl, rfl, by decide⟩

/-- Settles O12: both the step under RST and asserting RST are `hardwareReset`. -/
theorem rstAbortsToReset : Obligations.RstAbortsToReset := by
  intro s
  refine ⟨fun hrst => ⟨_, (Move.reset hrst).step_eq_next, ?step⟩, ?asserted⟩
  case step => exact ⟨getElem_zeroWords, rfl, rfl, rfl, rfl, rfl, rfl, rfl, rfl, rfl⟩
  case asserted =>
    rintro t rfl
    exact ⟨getElem_zeroWords, rfl, rfl, rfl, rfl, rfl, rfl, rfl, rfl, rfl⟩

/-- A register holds a length that fits it (R77). -/
theorem toNat_latched {n len : Nat} (h : len < 2 ^ n) : (BitVec.ofNat n len).toNat = len := by
  rw [BitVec.toNat_ofNat, Nat.mod_eq_of_lt h]

/-- Settles O13: the latched lengths are the operands, which fit. -/
theorem initIsAccepted : Obligations.InitIsAccepted := by
  intro s nlen klen hidle hwf
  obtain ⟨hnlen, hklen⟩ := wellFormed_init.mp hwf
  exact ⟨_, exec_init hidle nlen klen, rfl, toNat_latched hklen, toNat_latched hnlen, rfl, rfl, rfl⟩

/-- A length that fits the register is zero there exactly when it is zero. -/
theorem ofNat_eq_zero_iff {len : Nat} (h : len < 2 ^ 32) : BitVec.ofNat 32 len = 0#32 ↔ len = 0 := by
  rw [← BitVec.toNat_inj, toNat_latched h, BitVec.toNat_zero]

/-- Settles O14: a length that fits is zero in the latch only if it is zero. -/
theorem processIsAccepted : Obligations.ProcessIsAccepted := by
  intro s len hidle hwf
  have hlen := wellFormed_process.mp hwf
  rcases Nat.eq_zero_or_pos len with rfl | hpos
  · have hexec := exec_process_of_zero hidle (len := 0) rfl
    rw [complete_eq] at hexec
    exact ⟨_, hexec, rfl, fun h => absurd h (Nat.lt_irrefl 0), fun _ => ⟨rfl, rfl, rfl, rfl⟩⟩
  · have hne : BitVec.ofNat 32 len ≠ 0#32 := fun h => hpos.ne' ((ofNat_eq_zero_iff hlen).mp h)
    exact ⟨_, exec_process_of_ne_zero hidle hne, rfl, fun _ => ⟨rfl, toNat_latched hlen, rfl, rfl, rfl⟩,
      fun h => absurd h hpos.ne'⟩

/-- Settles O15. -/
theorem resetIsAccepted : Obligations.ResetIsAccepted := fun _ hidle => ⟨_, exec_reset hidle, rfl, rfl, rfl, rfl⟩

/-- Settles O52: acceptance, and then RST_CLEAR. -/
theorem resetRunsToItsCommandEffect : Obligations.ResetRunsToItsCommandEffect := by
  intro s hready
  have hbusy := busy_eq_false_of_seq_eq_idle hready.idle
  refine ⟨_, _, exec_reset hbusy, runs_succ 0 (Move.rstClear ?atClear).step_eq_next, rfl, rfl, rfl, rfl, rfl, rfl⟩
  case atClear => exact ⟨hready.released, rfl⟩

/-- Settles O48: the register is put together from its fields, bit 7 first. -/
theorem statusLayout : Obligations.StatusLayout := by
  intro s
  have hbusy : s.busy = true ↔ s.seq.ph ≠ .idle := bne_iff_ne
  rw [← hbusy]
  rw [State.status]
  generalize s.busy = busy, s.keyed = keyed, s.err = err
  revert busy keyed err
  decide

/-- Settles O49: the other moves write the channels only. -/
theorem hostMovesChangeOnlyTheChannels : Obligations.HostMovesChangeOnlyTheChannels := by
  intro a s hrst
  cases a with
  | present | supply | take | setTaking => rfl
  | setRst on =>
    cases on with
    | true => exact absurd rfl hrst
    | false => rfl

end Sys2Proof.Machine
end

section
/-! The operands KS_CHECK takes. -/

namespace Sys2Proof.Machine

/-- A key byte within reach is kept at its own place of KEYBUF (R25, R111). -/
theorem storeKey_of_getElem? (keybuf : Vector Byte 19) {key : List Byte} {p : Fin 19} {b : Byte}
    (h : key[p.val]? = some b) : (storeKey keybuf key)[p] = b := by
  simp [storeKey, h]

/-- Nonce word `j` is packed from bytes 4j to 4j + 3 (R51). -/
theorem nonceWords_of_getElem? {nonce : List Byte} {j : Fin 4} {b0 b1 b2 b3 : Byte} (h0 : nonce[4 * j.val]? = some b0)
    (h1 : nonce[4 * j.val + 1]? = some b1) (h2 : nonce[4 * j.val + 2]? = some b2)
    (h3 : nonce[4 * j.val + 3]? = some b3) : (nonceWords nonce)[j] = be32 b0 b1 b2 b3 := by
  simp [nonceWords, h0, h1, h2, h3]

/-- With a key and a 16-byte nonce of the latched lengths on DIN, these are what is taken (R57, R111). -/
theorem takeOperands_of_din {s : State} {key nonce more : List Byte} (hdin : s.io.din = key ++ nonce ++ more)
    (hklen : s.latch.klen.toNat = key.length) (hnlen : s.latch.nlen.toNat = nonce.length)
    (hnonce : nonce.length = 16) :
    takeOperands s = { s with
      latch := { s.latch with keybuf := storeKey s.latch.keybuf key, nw := nonceWords nonce }
      io := { s.io with din := more } } := by
  simp [takeOperands, State.operandLen, State.setLatch, State.setIo, hdin, hklen, hnlen, hnonce, Config.nonceBytes]

/-- KS_CHECK with a valid key and nonce on DIN (R111). -/
theorem exec_ksCheck_of_operands {s : State} {key nonce more : List Byte} (hdin : s.io.din = key ++ nonce ++ more)
    (hklen : s.latch.klen.toNat = key.length) (hnlen : s.latch.nlen.toNat = nonce.length) (hkey : key ≠ [])
    (hnonce : nonce.length = 16) :
    exec .ksCheck s = .next { s with
      latch := { s.latch with keybuf := storeKey s.latch.keybuf key, nw := nonceWords nonce }
      io := { s.io with din := more }, seq := ⟨.ksPack, 0, 0⟩ } := by
  have hsupplied : s.operandLen ≤ s.io.din.length := by
    simp only [State.operandLen, hklen, hnlen, hdin, List.length_append]
    omega
  have hvalid : initErrors s.latch.klen.toNat s.latch.nlen.toNat = 0#3 := by
    rw [initErrors_eq_zero, hklen, hnlen]
    exact ⟨(List.length_pos_iff.mpr hkey).ne', hnonce⟩
  rw [exec_ksCheck_passes hsupplied hvalid, takeOperands_of_din hdin hklen hnlen hnonce]

/-- Settles O16: the key bytes are stored at their places and the nonce words packed from theirs. -/
theorem ksCheckPasses : Obligations.KsCheckPasses := by
  intro s key nonce more hdin hklen hnlen hkey hnonce
  refine ⟨_, exec_ksCheck_of_operands hdin hklen hnlen hkey hnonce, rfl, ?keybuf, ?nw, rfl, rfl⟩
  case keybuf => exact fun p b hb => storeKey_of_getElem? _ hb
  case nw => exact fun j b0 b1 b2 b3 h0 h1 h2 h3 => nonceWords_of_getElem? h0 h1 h2 h3

/-- Settles O19: KS_PACK writes one word and SEQ whatever the byte it reads. -/
theorem ksPackRunsWithoutAKey : Obligations.KsPackRunsWithoutAKey := fun s _ =>
  ⟨_, exec_ksPack s, fun _ hj => words_set_other _ _ hj, rfl, rfl⟩

end Sys2Proof.Machine
end

section
/-! The counter's injection and UPD. -/

namespace Sys2Proof.Machine

/-- The injection is symmetric in the two halves of the counter (R133). -/
theorem injectWord_comm (w : Words) (lo hi : Word) (i : Index) : injectWord w lo hi i = injectWord w hi lo i := by
  refine words_ext fun k => ?_
  by_cases hk : k = i
  · rw [hk, injectWord_self, injectWord_self, BitVec.xor_assoc, BitVec.xor_assoc, BitVec.xor_comm (T _)]
  · rw [injectWord_other _ _ _ hk, injectWord_other _ _ _ hk]

/-- Equal halves of the counter cancel (R133). -/
theorem injectWord_cancel (w : Words) (c : Word) (i : Index) : injectWord w c c i = w := by
  refine words_ext fun k => ?_
  by_cases hk : k = i
  · rw [hk, injectWord_self, BitVec.xor_assoc, BitVec.xor_self, BitVec.xor_zero]
  · exact injectWord_other _ _ _ hk

/-- Settles O25: both facts are those of the word injected. -/
theorem injectionCancelsAndIsSymmetric : Obligations.InjectionCancelsAndIsSymmetric := by
  refine ⟨fun s hequal => ⟨_, exec_blkInject s, ?cancels⟩,
    fun s a b => ⟨_, _, exec_blkInject _, exec_blkInject _, ?symmetric⟩⟩
  case cancels => rw [hequal, injectWord_cancel]
  case symmetric => exact injectWord_comm _ _ _ _

/-- Settles O39: neither set of offsets has a zero, so no neighbour is the word being written. -/
theorem updReadsTheArrayBeforeItsWrite : Obligations.UpdReadsTheArrayBeforeItsWrite := by
  rintro a t e o (rfl | rfl)
  all_goals exact ⟨upd_self a t e (by decide) (by decide) (by decide), fun _ hk => upd_other a e _ hk⟩

/-- Settles O38: each value by evaluation. -/
theorem datapathWorkedExamples : Obligations.DatapathWorkedExamples := by
  unfold Obligations.DatapathWorkedExamples
  decide

end Sys2Proof.Machine
end

section
/-! Rotations as a group of bit moves, and the first stage of `T`. -/

namespace Sys2Proof.Machine

/-- Bit `i` of a word rotated right comes from `s` places above it, or from the word's bottom (R91). -/
theorem getLsbD_rotr {v : Word} {s b : Nat} (hs : s < 32) (hb : b < 32) :
    (rotr v s).getLsbD b = v.getLsbD ((b + s) % 32) := by
  rw [rotr, BitVec.getLsbD_rotateRight, Nat.mod_eq_of_lt hs]
  by_cases hstay : b < 32 - s
  · have hmod : (b + s) % 32 = s + b := by omega
    simp [hstay, hmod]
  · have hmod : (b + s) % 32 = b - (32 - s) := by omega
    simp [hstay, hmod, hb]

/-- The amount of a rotation counts modulo 32 (entry 14). -/
theorem rotl_mod (v : Word) (s : Nat) : rotl v (s % 32) = rotl v s := BitVec.rotateLeft_mod_eq_rotateLeft

/-- Bit `b` of a word rotated left by any amount comes from `s` places below it, cyclically (R90). -/
theorem getLsbD_rotl_mod (v : Word) (s : Nat) {b : Nat} (hb : b < 32) :
    (rotl v s).getLsbD b = v.getLsbD ((b + (32 - s % 32)) % 32) := by
  have hs : s % 32 < 32 := Nat.mod_lt s (by decide)
  rw [← rotl_mod, getLsbD_rotl hs]
  by_cases hlow : b < s % 32
  · have hmod : (b + (32 - s % 32)) % 32 = 32 - s % 32 + b := by omega
    rw [if_pos hlow, hmod]
  · have hmod : (b + (32 - s % 32)) % 32 = b - s % 32 := by omega
    simp [hlow, hb, hmod]

/-- Rotations to the left add up. -/
theorem rotl_rotl (v : Word) (s t : Nat) : rotl (rotl v s) t = rotl v (s + t) := by
  refine BitVec.eq_of_getLsbD_eq fun b hb => ?_
  rw [getLsbD_rotl_mod _ t hb, getLsbD_rotl_mod v s (Nat.mod_lt _ (by decide)), getLsbD_rotl_mod v (s + t) hb]
  congr 1
  omega

/-- A rotation acts on each side of an exclusive-or. -/
theorem rotl_xor (v w : Word) (s : Nat) : rotl (v ^^^ w) s = rotl v s ^^^ rotl w s := by
  refine BitVec.eq_of_getLsbD_eq fun b hb => ?_
  simp only [BitVec.getLsbD_xor, getLsbD_rotl_mod _ s hb]

/-- Rotating right is rotating left the rest of the way round. -/
theorem rotr_eq_rotl (v : Word) {s : Nat} (hs : s < 32) : rotr v s = rotl v ((32 - s) % 32) := by
  refine BitVec.eq_of_getLsbD_eq fun b hb => ?_
  rw [getLsbD_rotr hs hb, getLsbD_rotl_mod v _ hb]
  congr 1
  omega

/-- Rotating left by a whole word, or not at all, changes nothing. -/
theorem rotl_of_mod_eq_zero (v : Word) {s : Nat} (hs : s % 32 = 0) : rotl v s = v := by
  refine BitVec.eq_of_getLsbD_eq fun b hb => ?_
  rw [getLsbD_rotl_mod v s hb, hs]
  congr 1
  omega

/-- Rotating right undoes rotating left (R91). -/
theorem rotr_rotl (v : Word) {s : Nat} (hs : s < 32) : rotr (rotl v s) s = v := by
  rw [rotr_eq_rotl _ hs, rotl_rotl]
  exact rotl_of_mod_eq_zero v (by omega)

/-- Complementing a word complements its rotation. -/
theorem rotl_not (v : Word) (s : Nat) : rotl (~~~v) s = ~~~(rotl v s) := by
  refine BitVec.eq_of_getLsbD_eq fun b hb => ?_
  have hsource : (b + (32 - s % 32)) % 32 < 32 := Nat.mod_lt _ (by decide)
  rw [getLsbD_rotl_mod _ s hb, BitVec.getLsbD_not, BitVec.getLsbD_not, getLsbD_rotl_mod _ s hb, decide_eq_true hsource,
    decide_eq_true hb]

/-- The first assignment of `T` and its like: a word exclusive-ored with two of its rotations (R92). -/
def spread (a b : Nat) (x : Word) : Word := x ^^^ rotl x a ^^^ rotl x b

/-- In an exclusive-or a word met twice drops out. -/
theorem xor_cross_terms_cancel (x p q r u v : Word) :
    x ^^^ p ^^^ q ^^^ (p ^^^ r ^^^ u) ^^^ (q ^^^ u ^^^ v) = x ^^^ r ^^^ v := by
  ext i
  simp only [BitVec.getElem_xor]
  generalize x[i] = x, p[i] = p, q[i] = q, r[i] = r, u[i] = u, v[i] = v
  revert x p q r u v
  decide

/-- Spreading twice spreads twice as far: the cross terms cancel, as in a square over GF(2). -/
theorem spread_iterate_two (a b : Nat) : (spread a b)^[2] = spread (a + a) (b + b) := by
  funext x
  change spread a b (spread a b x) = _
  simp only [spread, rotl_xor, rotl_rotl, Nat.add_comm b a]
  exact xor_cross_terms_cancel _ _ _ _ _ _

/-- Spreading eight times by 5 and 25 places changes nothing: by then both rotations are by 8 places and cancel. -/
theorem spread_iterate_eight (x : Word) : (spread 5 25)^[8] x = x := by
  have hdouble : (spread 5 25)^[8] = (((spread 5 25)^[2])^[2])^[2] := rfl
  have hsame : rotl x 200 = rotl x 40 := by rw [← rotl_mod x 200, ← rotl_mod x 40]
  rw [hdouble, spread_iterate_two, spread_iterate_two, spread_iterate_two, spread, hsame, BitVec.xor_assoc,
    BitVec.xor_self, BitVec.xor_zero]

/-- What `T` does to the product with K (R92). -/
def afterProduct (x2 : Word) : Word :=
  let x3 := x2 ^^^ rotl x2 13
  let x4 := x3 + rotr x3 11
  x4 ^^^ rotr x4 17

/-- `T` spreads, multiplies by K and goes on. -/
theorem T_eq (x : Word) : T x = afterProduct (spread 5 25 x * Config.k) := by
  rw [T, rotr_eq_rotl x (by decide : 7 < 32)]
  rfl

/-- A product and its complement go on alike: each is exclusive-ored with its own rotation. -/
theorem afterProduct_not (x2 : Word) : afterProduct (~~~x2) = afterProduct x2 := by
  simp only [afterProduct, rotl_not, ← BitVec.not_xor_left, ← BitVec.not_xor_right, BitVec.not_not]

/-- The word whose product with K is the complement of the product of `x`: minus the inverse of K, minus the spread of
`x`, with the spreading undone. -/
def transformPartner (x : Word) : Word := (spread 5 25)^[7] (-0x855BA88F#32 - spread 5 25 x)

/-- The partner's product with K is the complement. -/
theorem spread_transformPartner_mul (x : Word) :
    spread 5 25 (transformPartner x) * Config.k = ~~~(spread 5 25 x * Config.k) := by
  have hundo : spread 5 25 (transformPartner x) = -0x855BA88F#32 - spread 5 25 x :=
    (Function.iterate_succ_apply' (spread 5 25) 7 _).symm.trans (spread_iterate_eight _)
  have hinverse : -0x855BA88F#32 * Config.k = -1#32 := by decide
  rw [hundo, BitVec.not_eq_neg_add]
  linear_combination hinverse

end Sys2Proof.Machine
end

section
/-! Settlements about rotations and `T`. -/

namespace Sys2Proof.Machine

/-- Settles O36: the three facts about a rotation to the right. -/
theorem rotrMovesEachBitAndUndoesRotl : Obligations.RotrMovesEachBitAndUndoesRotl := fun v _ _ hs hb =>
  ⟨getLsbD_rotr hs hb, rotr_eq_rotl v hs, rotr_rotl v hs⟩

/-- Settles O37: the partner's product with K is the complement of the word's own, which `T` does not tell apart. -/
theorem everyWordHasATransformPartner : Obligations.EveryWordHasATransformPartner := by
  intro x
  refine ⟨transformPartner x, fun hself => ?distinct, ?sameImage⟩
  case distinct =>
    have hproduct := spread_transformPartner_mul x
    rw [hself] at hproduct
    exact BitVec.ne_not_self (by decide) hproduct
  case sameImage => rw [T_eq, T_eq, spread_transformPartner_mul, afterProduct_not]

end Sys2Proof.Machine
end

section
/-! Passes over an array that treat each word by itself. -/

namespace Sys2Proof.Machine

/-- A pass whose update at `i` writes word `i` only, from that word only, does to each word it visits what its update
does. -/
theorem foldl_getElem {f : Words → Index → Words} {g : Index → Word → Word} (hself : ∀ w i, (f w i)[i] = g i w[i])
    (hother : ∀ w {i k}, k ≠ i → (f w i)[k] = w[k]) {l : List Index} (hl : l.Nodup) (w : Words) (k : Index) :
    (l.foldl f w)[k] = if k ∈ l then g k w[k] else w[k] := by
  induction l generalizing w with
  | nil => simp
  | cons i l ih =>
    obtain ⟨hi, hl⟩ := List.nodup_cons.mp hl
    rw [List.foldl_cons, ih hl]
    by_cases hk : k = i
    · subst hk
      simp [hi, hself]
    · simp [hk, hother]

/-- A pass over all sixteen words. -/
theorem foldl_finRange_getElem {f : Words → Index → Words} {g : Index → Word → Word}
    (hself : ∀ w i, (f w i)[i] = g i w[i]) (hother : ∀ w {i k}, k ≠ i → (f w i)[k] = w[k]) (w : Words) (k : Index) :
    ((List.finRange 16).foldl f w)[k] = g k w[k] := by
  rw [foldl_getElem hself hother (List.nodup_finRange 16), if_pos (List.mem_finRange k)]

/-- One nonce word folded into all sixteen words (R113). -/
def foldNoncePass (w : Words) (n : Word) : Words := (List.finRange 16).foldl (fun w i => foldNonceWord w n i) w

/-- Each word takes its own share of a nonce word. -/
theorem foldNoncePass_getElem (w : Words) (n : Word) (k : Index) :
    (foldNoncePass w n)[k] = w[k] ^^^ T (n + indexWord k) :=
  foldl_finRange_getElem (g := fun i v => v ^^^ T (n + indexWord i)) (fun w i => foldNonceWord_self w n i)
    (fun w _ _ hk => foldNonceWord_other w n hk) w k

/-- Two nonce words may change places. -/
theorem foldNoncePass_comm (w : Words) (n m : Word) :
    foldNoncePass (foldNoncePass w n) m = foldNoncePass (foldNoncePass w m) n := by
  refine words_ext fun k => ?_
  simp only [foldNoncePass_getElem, BitVec.xor_assoc, BitVec.xor_comm (T (n + indexWord k))]

/-- Two equal nonce words cancel. -/
theorem foldNoncePass_cancel (w : Words) (n : Word) : foldNoncePass (foldNoncePass w n) n = w := by
  refine words_ext fun k => ?_
  rw [foldNoncePass_getElem, foldNoncePass_getElem, BitVec.xor_assoc, BitVec.xor_self, BitVec.xor_zero]

/-- KS_NONCE folds in the nonce words one after the other (R110, R113). -/
theorem foldNonce_eq (w : Words) (n : Vector Word 4) : foldNonce w n = n.toList.foldl foldNoncePass w := by
  have hwords : n.toList = (List.finRange 4).map fun j => n[j] := by
    apply List.ext_getElem <;> simp
  rw [hwords, List.foldl_map]
  rfl

/-- The four passes written out. -/
theorem foldNonce_passes (w : Words) (n : Vector Word 4) :
    foldNonce w n = foldNoncePass (foldNoncePass (foldNoncePass (foldNoncePass w n[0]) n[1]) n[2]) n[3] := by
  have hindices : List.finRange 4 = [0, 1, 2, 3] := rfl
  simp only [foldNonce, hindices, List.foldl_cons, List.foldl_nil, foldNoncePass]
  rfl

/-- Settles O54: the passes commute, and a pass undoes itself. -/
theorem nonceWordOrderDoesNotMatter : Obligations.NonceWordOrderDoesNotMatter := by
  intro w n m hperm
  have horder : foldNonce w n = foldNonce w m := by
    rw [foldNonce_eq, foldNonce_eq]
    exact hperm.foldl_eq' (fun a _ b _ v => foldNoncePass_comm v a b) w
  refine ⟨horder, fun h01 h23 => ?_⟩
  rw [← horder, foldNonce_passes, h01, h23, foldNoncePass_cancel, foldNoncePass_cancel]

end Sys2Proof.Machine
end

section
/-! The key schedule's inputs. -/

namespace Sys2Proof.Machine

/-- KEY[p mod KLEN] of a key longer than `p` is among its first bytes (R50, R116). -/
theorem keyAt_eq_getD_take {key : List Byte} {n p : Nat} (hn : n ≤ key.length) (hp : p < n) :
    keyAt key p = (key.take n).getD p 0#8 := by
  rw [keyAt, Nat.mod_eq_of_lt (by omega), List.getD_eq_getElem?_getD, List.getD_eq_getElem?_getD,
    List.getElem?_take_of_lt hp]

/-- The packed key reads positions 0 to 18 only (R116). -/
theorem packKey_congr {key key' : List Byte} (h : ∀ p < 19, keyAt key p = keyAt key' p) :
    packKey key = packKey key' := by
  refine words_ext fun i => ?_
  have hi := i.isLt
  simp only [packKey, Fin.getElem_fin, Vector.getElem_ofFn]
  rw [h _ (by omega), h _ (by omega), h _ (by omega), h _ (by omega)]

/-- The errors of an INIT with a key do not depend on the key's length. -/
theorem initErrors_of_pos {klen klen' : Nat} (h : 0 < klen) (h' : 0 < klen') (nlen : Nat) :
    initErrors klen nlen = initErrors klen' nlen := by
  rw [initErrors, initErrors, if_neg h.ne', if_neg h'.ne']

/-- Settles O53: the packed key reads the first 19 bytes, and the errors ask only whether there is a key. -/
theorem onlyNineteenKeyBytesMatter : Obligations.OnlyNineteenKeyBytesMatter := by
  intro key key' nonce a hlen hlen' htake
  have hpack : packKey key = packKey key' := packKey_congr fun p hp => by
    rw [keyAt_eq_getD_take hlen hp, keyAt_eq_getD_take hlen' hp, htake]
  have herrors := initErrors_of_pos (by omega : 0 < key.length) (by omega : 0 < key'.length) nonce.length
  simp only [initCommand, keySchedule, hpack, herrors]

/-- A valid INIT does what it does whatever the state before it (R110). -/
theorem initCommand_of_valid {key nonce : List Byte} (hkey : key ≠ []) (hnonce : nonce.length = 16) (a : Arch) :
    initCommand key nonce a = ⟨keySchedule key nonce, 0#32, 0#32, true, 0#3⟩ := by
  have hvalid : initErrors key.length nonce.length = 0#3 :=
    (initErrors_eq_zero _ _).mpr ⟨(List.length_pos_iff.mpr hkey).ne', hnonce⟩
  rw [initCommand, hvalid]
  exact if_neg fun h => h rfl

end Sys2Proof.Machine
end

section
/-! The all-zero state. -/

namespace Sys2Proof.Machine

/-- An update of the all-zero array with no second operand leaves it all zero. -/
theorem upd_zeroWords (t : Index) (o : Offsets) : upd zeroWords t 0#32 o = zeroWords := by
  have hset : zeroWords.set t 0#32 = zeroWords := words_ext fun k => by
    by_cases hk : k = t
    · rw [hk, words_set_self, getElem_zeroWords]
    · exact words_set_other _ _ hk
  simp only [upd, getElem_zeroWords, BitVec.xor_zero, T_zero, hset, Mix_zero]

theorem columnPass_zeroWords : columnPass zeroWords = zeroWords :=
  List.foldl_fixed' (fun i => upd_zeroWords i _) _

theorem diagonalPass_zeroWords : diagonalPass zeroWords = zeroWords :=
  List.foldl_fixed' (fun i => upd_zeroWords (Config.diaStride * i) _) _

theorem ratchetPass_zeroWords : ratchetPass zeroWords zeroWords = zeroWords := by
  refine List.foldl_fixed' (fun i => ?_) _
  rw [getElem_zeroWords, upd_zeroWords]

/-- Equal halves of the counter inject nothing. -/
theorem inject_cancel (w : Words) (c : Word) : inject w c c = w :=
  List.foldl_fixed' (fun i => injectWord_cancel w c i) _

/-- Settles O55: every pass of the block and of the ratchet keeps the array all zero. -/
theorem allZeroStateGivesAZeroBlock : Obligations.AllZeroStateGivesAZeroBlock := by
  intro a c hS hlo hhi
  have hblock : keystreamBlock a = zeroWords := by
    rw [keystreamBlock, hS, hlo, hhi, inject_cancel]
    refine Function.iterate_fixed ?_ _
    rw [columnPass_zeroWords, diagonalPass_zeroWords]
  refine ⟨hblock, ?bytes, ?ratchet⟩
  case bytes =>
    rw [hblock]
    decide
  case ratchet => rw [afterBlock, hS, hblock, ratchetPass_zeroWords]

end Sys2Proof.Machine
end

section
/-! Blocks of a PROCESS: what they count and how they are cut. -/

namespace Sys2Proof.Machine

/-- The two halves of the counter side by side, by value (R22). -/
theorem toNat_counter (hi lo : Word) : (hi ++ lo : BitVec 64).toNat = hi.toNat * 2 ^ 32 + lo.toNat := by
  rw [BitVec.toNat_append, ← Nat.shiftLeft_add_eq_or_of_lt lo.isLt, Nat.shiftLeft_eq]

/-- One block advances the 64-bit counter by one, carry included (R139). -/
theorem counter_next (lo hi : Word) : (ctrNextHi lo hi ++ ctrNextLo lo : BitVec 64) = (hi ++ lo) + 1#64 := by
  have hlo := lo.isLt
  have hhi := hi.isLt
  refine BitVec.eq_of_toNat_eq ?_
  rw [BitVec.toNat_add, toNat_counter, toNat_counter, ctrNextLo_toNat, BitVec.toNat_ofNat]
  by_cases hwrap : ctrNextLo lo = 0#32
  · have hzero := (ctrNextLo_toNat lo).symm.trans (congrArg BitVec.toNat hwrap)
    rw [ctrNextHi_toNat_of_wrapped hi hwrap]
    simp only [BitVec.toNat_zero] at hzero
    omega
  · have hne : (ctrNextLo lo).toNat ≠ 0 := fun h => hwrap (BitVec.eq_of_toNat_eq h)
    rw [ctrNextLo_toNat] at hne
    rw [ctrNextHi_of_not_wrapped hi hwrap]
    omega

/-- A block advances the counter by one (R139). -/
theorem afterBlock_counter (a : Arch) :
    ((afterBlock a).ctrHi ++ (afterBlock a).ctrLo : BitVec 64) = (a.ctrHi ++ a.ctrLo) + 1#64 := by
  rw [afterBlock, counter_next]

/-- A block leaves KEYED alone (R30). -/
theorem afterBlock_keyed (a : Arch) : (afterBlock a).keyed = a.keyed := by simp only [afterBlock]

/-- The state after `b + 1` blocks is that after `b` more from the state after the first. -/
theorem processBlocks_succ_state (b : Nat) (buf : List Byte) (a : Arch) :
    (processBlocks (b + 1) buf a).1 = (processBlocks b (buf.drop Config.blockBytes) (afterBlock a)).1 := rfl

/-- Blocks advance the counter by their number and leave KEYED and ERR alone (R30, R31, R139). -/
theorem processBlocks_counter (b : Nat) (buf : List Byte) (a : Arch) :
    ((processBlocks b buf a).1.ctrHi ++ (processBlocks b buf a).1.ctrLo : BitVec 64) =
        (a.ctrHi ++ a.ctrLo) + BitVec.ofNat 64 b ∧
      (processBlocks b buf a).1.keyed = a.keyed := by
  induction b generalizing buf a with
  | zero => simp [processBlocks]
  | succ b ih =>
    obtain ⟨hcounter, hkeyed⟩ := ih (buf.drop Config.blockBytes) (afterBlock a)
    rw [processBlocks_succ_state, hcounter, hkeyed, afterBlock_counter, BitVec.add_assoc, ← BitVec.ofNat_add,
      Nat.add_comm 1 b, afterBlock_keyed]
    exact ⟨rfl, rfl⟩

/-- Settles O56: the counter and KEYED by the blocks, the output's length by the keystream's. -/
theorem processCountsBlocks : Obligations.ProcessCountsBlocks := by
  intro buf a
  obtain ⟨hcounter, hkeyed⟩ := processBlocks_counter (blockCount buf.length) buf a
  exact ⟨processCommand_output_length buf a, hcounter, hkeyed, rfl⟩

/-- Settles O57: 1 to 64 bytes are one block. -/
theorem partialBlockConsumesAWholeBlock : Obligations.PartialBlockConsumesAWholeBlock := by
  intro buf a
  constructor
  · intro hne hle
    have hpos : 0 < buf.length := List.length_pos_iff.mpr hne
    have hone : blockCount buf.length = 1 := by
      rw [blockCount]
      omega
    rw [processCommand, hone]
    rfl
  · rintro rfl
    rfl

/-- Blocks read no ERR and write none (R31). -/
theorem processBlocks_withErr (b : Nat) (buf : List Byte) (a : Arch) (e : BitVec 3) :
    processBlocks b buf { a with err := e } =
      ({ (processBlocks b buf a).1 with err := e }, (processBlocks b buf a).2) := by
  induction b generalizing buf a with
  | zero => rfl
  | succ b ih =>
    have hafter : afterBlock { a with err := e } = { afterBlock a with err := e } := rfl
    simp only [processBlocks, hafter, ih]
    rfl

/-- `b` whole blocks and then `c` more are `b + c` blocks. -/
theorem processBlocks_append (b c : Nat) {x : List Byte} (y : List Byte) (a : Arch) (hx : x.length = 64 * b) :
    processBlocks (b + c) (x ++ y) a =
      ((processBlocks c y (processBlocks b x a).1).1,
        (processBlocks b x a).2 ++ (processBlocks c y (processBlocks b x a).1).2) := by
  induction b generalizing x a with
  | zero =>
    obtain rfl : x = [] := List.length_eq_zero_iff.mp hx
    rw [Nat.zero_add]
    rfl
  | succ b ih =>
    have hle : 64 ≤ x.length := by omega
    have hrest : (x.drop 64).length = 64 * b := by
      rw [List.length_drop]
      omega
    rw [Nat.add_right_comm]
    simp only [processBlocks, Config.blockBytes, List.take_append_of_le_length hle, List.drop_append_of_le_length hle,
      ih _ hrest, List.append_assoc]

/-- Settles O60: the first part's blocks are whole, so the second part begins at a block of its own. -/
theorem chunkingAtBlockBoundaries : Obligations.ChunkingAtBlockBoundaries := by
  rintro x y a ⟨b, hx⟩
  have hfirst : blockCount x.length = b := by
    rw [blockCount]
    omega
  have hwhole : blockCount (x ++ y).length = b + blockCount y.length := by
    rw [List.length_append, blockCount, blockCount]
    omega
  simp only [processCommand, hfirst, hwhole, processBlocks_append _ _ y a hx, processBlocks_withErr]

end Sys2Proof.Machine
end

section
/-! PROCESS undoes itself. -/

namespace Sys2Proof.Machine

/-- PROCESS on its own output gives back the data and ends in the same state (R145). -/
theorem processCommand_processCommand (buf : List Byte) (a : Arch) :
    processCommand (processCommand buf a).2 a = ((processCommand buf a).1, buf) := by
  have hlen := processCommand_output_length buf a
  refine Prod.ext (processCommand_state_of_length_eq hlen a) ?_
  rw [processCommand_output, hlen, processCommand_output]
  exact zipWith_xor_cancel _ _ (by rw [keystream_length]; exact le_blockCount_mul _)

/-- So does a sequence of them. -/
theorem processMany_processMany (bufs : List (List Byte)) (a : Arch) :
    processMany (processMany bufs a).2 a = ((processMany bufs a).1, bufs) := by
  induction bufs generalizing a with
  | nil => rfl
  | cons buf bufs ih =>
    rw [processMany_cons_output, processMany_cons_state, processMany, processCommand_processCommand]
    simp only [ih]

/-- Settles O59: PROCESS undoes itself, and a valid INIT leaves the same state whatever was before it. -/
theorem processingTheOutputsRestoresTheInputs : Obligations.ProcessingTheOutputsRestoresTheInputs := by
  refine ⟨processMany_processMany, fun bufs key nonce a a' hkey hnonce => ?_⟩
  rw [initCommand_of_valid hkey hnonce, initCommand_of_valid hkey hnonce, processMany_processMany]

end Sys2Proof.Machine
end

section
/-! Runs through the loops of the sequencer. -/

namespace Sys2Proof.Machine

/-- Two runs one after the other. -/
theorem runs_trans {s t u : State} {j k : Nat} (h : runs j s = .next t) (h' : runs k t = .next u) :
    runs (j + k) s = .next u :=
  (runs_add j k h).trans h'

/-- A step is a run of one. -/
theorem Move.runs_one {s t : State} (h : Move s t) : runs 1 s = .next t := runs_succ 0 h.step_eq_next

/-- `n` stages of `c` steps each: stage `k` takes the engine from position `k` to position `k + 1` and changes the value
it works on by `f · k`. -/
theorem runs_stages {α : Type} {c n : Nat} {position : Nat → α → State} {f : α → Nat → α}
    (h : ∀ k < n, ∀ a, runs c (position k a) = .next (position (k + 1) (f a k))) (a : α) :
    runs (c * n) (position 0 a) = .next (position n ((List.range n).foldl f a)) := by
  induction n with
  | zero => rfl
  | succ n ih =>
    rw [List.range_succ, List.foldl_append]
    exact runs_trans (ih fun k hk => h k (hk.trans n.lt_succ_self)) (h n n.lt_succ_self _)

/-- A loop over the sixteen words of a phase (R117, R149): where the step at word `i` changes the value the phase works
on by `f · i` and goes on to the next word, sixteen steps do so for every word in order. -/
theorem runs_words {α : Type} {place : α → Seq → State} {f : α → Index → α} {ph : Phase} {r : Fin 20} {done : Seq}
    (h : ∀ a i, Move (place a ⟨ph, r, i⟩) (place (f a i) (nextWord ⟨ph, r, i⟩ ph done))) (a : α) :
    runs 16 (place a ⟨ph, r, 0⟩) = .next (place ((List.finRange 16).foldl f a) done) := by
  have hstages := runs_stages (c := 1) (n := 16) (f := fun a k => f a (Fin.ofNat 16 k))
    (position := fun k a => place a (if k < 16 then ⟨ph, r, Fin.ofNat 16 k⟩ else done)) (a := a) fun k hk a => by
      have hnext : nextWord ⟨ph, r, Fin.ofNat 16 k⟩ ph done =
          if k + 1 < 16 then ⟨ph, r, Fin.ofNat 16 (k + 1)⟩ else done := by
        have hval : (Fin.ofNat 16 k).val = k := Nat.mod_eq_of_lt hk
        have hsucc : Fin.ofNat 16 k + 1 = Fin.ofNat 16 (k + 1) := by ext; simp [Fin.val_add]
        simp only [nextWord, hval, hsucc, Nat.add_lt_iff_lt_sub_right, show 16 - 1 = 15 from rfl]
      simp only [if_pos hk, ← hnext]
      exact (h a _).runs_one
  have hindices : List.range 16 = (List.finRange 16).map Fin.val := rfl
  rw [hindices, List.foldl_map] at hstages
  simp only [Fin.ofNat_val_eq_self] at hstages
  exact hstages

/-- A loop over the rounds 0 to `last` of a phase (R117, R149): where the run from the beginning of round `r` changes
the value the phase works on by `p · r` and ends at the next round, the rounds do so in order. -/
theorem runs_rounds {α : Type} {place : α → Seq → State} {c last : Nat} {p : α → Fin 20 → α} {ph : Phase} {done : Seq}
    (hlast : last < 20)
    (h : ∀ a r, runs c (place a ⟨ph, r, 0⟩) =
      .next (place (p a r) (if r.val < last then ⟨ph, r + 1, 0⟩ else done))) (a : α) :
    runs (c * (last + 1)) (place a ⟨ph, 0, 0⟩) =
      .next (place ((List.range (last + 1)).foldl (fun a k => p a (Fin.ofNat 20 k)) a) done) := by
  have hstages := runs_stages (c := c) (n := last + 1) (f := fun a k => p a (Fin.ofNat 20 k))
    (position := fun k a => place a (if k < last + 1 then ⟨ph, Fin.ofNat 20 k, 0⟩ else done)) (a := a) fun k hk a => by
      have hval : (Fin.ofNat 20 k).val = k := Nat.mod_eq_of_lt (by omega)
      have hsucc : Fin.ofNat 20 k + 1 = Fin.ofNat 20 (k + 1) := by ext; simp [Fin.val_add]
      have hround := h a (Fin.ofNat 20 k)
      rw [hval, hsucc] at hround
      simpa only [if_pos hk, Nat.add_lt_add_iff_right] using hround
  simpa using hstages

end Sys2Proof.Machine
end

section
/-! INIT from acceptance to IDLE. -/

namespace Sys2Proof.Machine

variable {s : State}

/-- The state in the course of a command: what the loops of the sequencer write. -/
def State.working (s : State) (w : Words) (q : Seq) : State := { s with W := w, seq := q }

/-- Sixteen steps of KS_PACK fill W from the key in KEYBUF (R110, R112). -/
theorem runs_ksPack (hrst : s.io.rst = false) {key : List Byte} (hne : key ≠ [])
    (hlen : s.latch.klen.toNat = key.length)
    (hbuf : ∀ p : Fin 19, ∀ b, key[p.val]? = some b → s.latch.keybuf[p] = b) (w : Words) :
    runs 16 (s.working w ⟨.ksPack, 0, 0⟩) = .next (s.working (packKey key) ⟨.ksNonce, 0, 0⟩) := by
  have hpacked : (List.finRange 16).foldl (fun w i => w.set i (packWord s.latch i)) w = packKey key := by
    refine words_ext fun i => ?_
    have hbyte (k : Fin 4) : keyAt key (i.val + k.val) = keyByte s.latch i k := by
      rw [keyAt, List.getD_eq_getElem?_getD, getElem?_eq_some_keyByte hne hlen hbuf i k, Option.getD_some]
    rw [foldl_finRange_getElem (g := fun i _ => packWord s.latch i) (fun w i => words_set_self w i _)
      (fun w _ _ hk => words_set_other w _ hk)]
    simp only [packKey, Fin.getElem_fin, Vector.getElem_ofFn, packWord, ← hbyte]
    rfl
  rw [← hpacked]
  exact runs_words (place := s.working) (fun w i => Move.ksPack (s := s.working w ⟨.ksPack, 0, i⟩) ⟨hrst, rfl⟩) w

/-- The rounds of KS_NONCE, with the nonce word in SEQ.r, are the passes of the command level (R110, R113). -/
theorem foldNonce_eq_rounds (l : Latch) (w : Words) :
    (List.range 4).foldl (fun w k => foldNoncePass w (nonceWord l (Fin.ofNat 20 k))) w = foldNonce w l.nw := by
  have hindices : List.range 4 = (List.finRange 4).map Fin.val := rfl
  have hword (j : Fin 4) : nonceWord l (Fin.ofNat 20 j.val) = l.nw[j] :=
    nonceWord_of_val_eq l (Nat.mod_eq_of_lt (by omega))
  simp only [hindices, List.foldl_map, hword]
  rfl

/-- Sixty-four steps of KS_NONCE fold the four nonce words in (R110, R113). -/
theorem runs_ksNonce (hrst : s.io.rst = false) (w : Words) :
    runs 64 (s.working w ⟨.ksNonce, 0, 0⟩) = .next (s.working (foldNonce w s.latch.nw) ⟨.ksDiffuse, 0, 0⟩) := by
  rw [← foldNonce_eq_rounds]
  exact runs_rounds (place := s.working) (c := 16) (p := fun w r => foldNoncePass w (nonceWord s.latch r))
    (ph := .ksNonce) (last := 3) (done := ⟨.ksDiffuse, 0, 0⟩) (by decide)
    (fun w r => runs_words (place := s.working)
      (fun w i => Move.ksNonce (s := s.working w ⟨.ksNonce, r, i⟩) ⟨hrst, rfl⟩) w) w

/-- Three hundred and twenty steps of KS_DIFFUSE are twenty column passes (R110, R114). -/
theorem runs_ksDiffuse (hrst : s.io.rst = false) (w : Words) :
    runs 320 (s.working w ⟨.ksDiffuse, 0, 0⟩) =
      .next (s.working (columnPass^[Config.ksRounds] w) ⟨.ksCommit, 0, 0⟩) := by
  have hrounds := runs_rounds (place := s.working) (c := 16) (p := fun w _ => columnPass w) (ph := .ksDiffuse)
    (last := 19) (done := ⟨.ksCommit, 0, 0⟩) (by decide)
    (fun w r => runs_words (place := s.working)
      (fun w i => Move.ksDiffuse (s := s.working w ⟨.ksDiffuse, r, i⟩) ⟨hrst, rfl⟩) w) w
  rwa [List.foldl_const, List.length_range] at hrounds

/-- The operands of an INIT in KEYBUF and NW, and gone from DIN (R57, R111). -/
def State.withOperands (s : State) (key nonce more : List Byte) : State :=
  { s with
    latch := { s.latch with keybuf := storeKey s.latch.keybuf key, nw := nonceWords nonce }
    io := { s.io with din := more } }

/-- Taking the operands leaves the latched key length. -/
theorem withOperands_klen (s : State) (key nonce more : List Byte) :
    (s.withOperands key nonce more).latch.klen = s.latch.klen := by simp only [State.withOperands]

/-- KS_CHECK passes and the key schedule runs: 401 steps from KS_CHECK to KS_COMMIT (R110, R118). -/
theorem runs_keySchedule (hat : s.At .ksCheck) {key nonce more : List Byte} (hdin : s.io.din = key ++ nonce ++ more)
    (hklen : s.latch.klen.toNat = key.length) (hnlen : s.latch.nlen.toNat = nonce.length) (hkey : key ≠ [])
    (hnonce : nonce.length = 16) :
    runs 401 s = .next ((s.withOperands key nonce more).working (keySchedule key nonce) ⟨.ksCommit, 0, 0⟩) := by
  have hrst : (s.withOperands key nonce more).io.rst = false := hat.1
  have hcheck : runs 1 s = .next ((s.withOperands key nonce more).working s.W ⟨.ksPack, 0, 0⟩) := by
    have hexec := exec_ksCheck_of_operands hdin hklen hnlen hkey hnonce
    rw [runs_succ 0 ((step_of_microOp hat rfl).trans hexec), runs_zero, State.working, State.withOperands]
  have hbuf (p : Fin 19) (b : Byte) (hb : key[p.val]? = some b) :
      (s.withOperands key nonce more).latch.keybuf[p] = b := storeKey_of_getElem? s.latch.keybuf hb
  rw [← withOperands_klen s key nonce more] at hklen
  have hpack := runs_ksPack hrst hkey hklen hbuf s.W
  have hnonce := runs_ksNonce hrst (packKey key)
  have hdiffuse := runs_ksDiffuse hrst (foldNonce (packKey key) (nonceWords nonce))
  exact runs_trans hcheck (runs_trans hpack (runs_trans hnonce hdiffuse))

/-- The state in which INIT begins (R25, R117). -/
def State.initAccepted (s : State) (nlen klen : Nat) : State :=
  { s with
    latch := { s.latch with op := .init, klen := BitVec.ofNat 32 klen, nlen := BitVec.ofNat 8 nlen }
    seq := ⟨.ksCheck, 0, 0⟩ }

/-- `t` is where an INIT begun in `s` leaves the engine: idle, its operands taken from DIN, its transients discarded. -/
structure State.InitEnds (s t : State) (more : List Byte) : Prop where
  seq : t.seq = Seq.idle
  io : t.io = { s.io with din := more }
  w : t.W = (discardTransients s).W
  off : t.off = (discardTransients s).off
  latch : t.latch = (discardTransients s).latch

/-- From KS_CHECK a valid INIT takes 402 steps to IDLE (R110, R115, R118). -/
theorem init_succeeds (hat : s.At .ksCheck) {key nonce more : List Byte} (hdin : s.io.din = key ++ nonce ++ more)
    (hklen : s.latch.klen.toNat = key.length) (hnlen : s.latch.nlen.toNat = nonce.length) (hkey : key ≠ [])
    (hnonce : nonce.length = 16) :
    ∃ t, runs 402 s = .next t ∧ t.arch = initCommand key nonce s.arch ∧ s.InitEnds t more := by
  have hschedule := runs_keySchedule hat hdin hklen hnlen hkey hnonce
  have hcommit := (Move.ksCommit
    (s := (s.withOperands key nonce more).working (keySchedule key nonce) ⟨.ksCommit, 0, 0⟩) ⟨hat.1, rfl⟩).runs_one
  refine ⟨_, runs_trans hschedule hcommit, ?arch, ?ends⟩
  case arch =>
    rw [initCommand_of_valid hkey hnonce]
    rfl
  case ends => constructor <;> simp [State.working, State.withOperands, discardTransients_eq]

/-- From KS_CHECK an INIT with no key or a nonce that is not 16 bytes takes one step to IDLE (R110, R111, R174). -/
theorem init_fails (hat : s.At .ksCheck) {key nonce more : List Byte} (hdin : s.io.din = key ++ nonce ++ more)
    (hklen : s.latch.klen.toNat = key.length) (hnlen : s.latch.nlen.toNat = nonce.length)
    (hinvalid : ¬ (key ≠ [] ∧ nonce.length = 16)) :
    ∃ t, runs 1 s = .next t ∧ t.arch = initCommand key nonce s.arch ∧ s.InitEnds t more := by
  have hoperands : s.operandLen = (key ++ nonce).length := by
    rw [State.operandLen, hklen, hnlen, List.length_append]
  have hsupplied : s.operandLen ≤ s.io.din.length := by
    rw [hdin, hoperands, List.length_append (bs := more)]
    omega
  have hmore : s.io.din.drop s.operandLen = more := by rw [hdin, hoperands, List.drop_left]
  have herr : initErrors key.length nonce.length ≠ 0#3 := fun hzero =>
    hinvalid (((initErrors_eq_zero _ _).mp hzero).imp_left fun h => List.length_pos_iff.mp (Nat.pos_of_ne_zero h))
  have hexec := exec_ksCheck_of_error hsupplied (by rwa [hklen, hnlen])
  rw [hmore, hklen, hnlen] at hexec
  refine ⟨_, runs_succ 0 ((step_of_microOp hat rfl).trans hexec), (if_pos herr).symm, ?ends⟩
  case ends => constructor <;> simp [discardTransients_eq]

end Sys2Proof.Machine
end

section
/-! Settlement about INIT as a whole. -/

namespace Sys2Proof.Machine

/-- Settles O50: KS_CHECK rejects the lengths at once, or the key schedule runs through to KS_COMMIT; either way the
command ends with its transients discarded. -/
theorem initRunsToItsCommandEffect : Obligations.InitRunsToItsCommandEffect := by
  intro s key nonce more hready hwf hdin
  obtain ⟨hnlen, hklen⟩ := wellFormed_init.mp hwf
  have hexec := exec_init (busy_eq_false_of_seq_eq_idle hready.idle) nonce.length key.length
  have hrun : ∃ t,
      runs (if key ≠ [] ∧ nonce.length = 16 then 402 else 1) (s.initAccepted nonce.length key.length) = .next t ∧
      t.arch = initCommand key nonce s.arch ∧ (s.initAccepted nonce.length key.length).InitEnds t more := by
    have hat : (s.initAccepted nonce.length key.length).At .ksCheck := ⟨hready.released, rfl⟩
    split_ifs with hvalid
    · exact init_succeeds hat hdin (toNat_latched hklen) (toNat_latched hnlen) hvalid.1 hvalid.2
    · exact init_fails hat hdin (toNat_latched hklen) (toNat_latched hnlen) hvalid
  obtain ⟨t, hruns, harch, hseq, hio, hW, hoff, hlatch⟩ := hrun
  refine ⟨_, t, hexec, hruns, harch, hseq, hio, hW, hoff, hlatch, fun u hu => ?_⟩
  rw [hW, hoff, hlatch]
  exact discardTransients_forgets hu

end Sys2Proof.Machine
end

section
/-! One block of a PROCESS, from BLK_LOAD to BLK_NEXT. -/

namespace Sys2Proof.Machine

variable {s : State}

/-- Sixteen steps of BLK_INJECT inject the counter into every word (R130, R133). -/
theorem runs_blkInject (hrst : s.io.rst = false) (w : Words) :
    runs 16 (s.working w ⟨.blkInject, 0, 0⟩) = .next (s.working (inject w s.ctrLo s.ctrHi) ⟨.blkCol, 0, 0⟩) :=
  runs_words (place := s.working) (f := fun w i => injectWord w s.ctrLo s.ctrHi i) (done := ⟨.blkCol, 0, 0⟩)
    (fun w i => Move.blkInject (s := s.working w ⟨.blkInject, 0, i⟩) ⟨hrst, rfl⟩) w

/-- A round is a column pass and a diagonal pass, sixteen steps each (R130, R134, R135). -/
theorem runs_blkRound (hrst : s.io.rst = false) (w : Words) (r : Fin 20) :
    runs 32 (s.working w ⟨.blkCol, r, 0⟩) =
      .next (s.working (diagonalPass (columnPass w))
        (if r.val < 19 then ⟨.blkCol, r + 1, 0⟩ else ⟨.blkXor, 0, 0⟩)) := by
  have hcolumn : runs 16 (s.working w ⟨.blkCol, r, 0⟩) = .next (s.working (columnPass w) ⟨.blkDiag, r, 0⟩) :=
    runs_words (place := s.working) (f := fun w i => upd w i 0#32 Config.colOffs) (done := ⟨.blkDiag, r, 0⟩)
      (fun w i => Move.blkCol (s := s.working w ⟨.blkCol, r, i⟩) ⟨hrst, rfl⟩) w
  have hdiagonal := runs_words (place := s.working) (r := r)
    (f := fun w i => upd w (Config.diaStride * i) 0#32 Config.diaOffs)
    (done := if r.val < 19 then ⟨.blkCol, r + 1, 0⟩ else ⟨.blkXor, 0, 0⟩)
    (fun w i => Move.blkDiag (s := s.working w ⟨.blkDiag, r, i⟩) ⟨hrst, rfl⟩) (columnPass w)
  exact runs_trans hcolumn hdiagonal

/-- From BLK_LOAD to BLK_XOR: W holds the keystream block after 657 steps (R130, R136). -/
theorem runs_keystreamBlock (hrst : s.io.rst = false) (hseq : s.seq = ⟨.blkLoad, 0, 0⟩) :
    runs 657 s = .next (s.working (keystreamBlock s.arch) ⟨.blkXor, 0, 0⟩) := by
  have hload : runs 1 s = .next (s.working s.S ⟨.blkInject, 0, 0⟩) := (Move.blkLoad ⟨hrst, by rw [hseq]⟩).runs_one
  have hinject := runs_blkInject hrst s.S
  have hrounds := runs_rounds (place := s.working) (p := fun w _ => diagonalPass (columnPass w)) (ph := .blkCol)
    (last := 19) (done := ⟨.blkXor, 0, 0⟩) (by decide) (runs_blkRound hrst) (inject s.S s.ctrLo s.ctrHi)
  rw [List.foldl_const, List.length_range] at hrounds
  exact runs_trans hload (runs_trans hinject hrounds)

/-- The state in the course of the ratchet. -/
def State.ratcheting (s : State) (v : Words) (q : Seq) : State := { s with S := v, seq := q }

/-- Sixteen steps of BLK_RATCHET are the ratchet pass over S with W as second operand (R140). -/
theorem runs_blkRatchet (hrst : s.io.rst = false) (v : Words) :
    runs 16 (s.ratcheting v ⟨.blkRatchet, 0, 0⟩) = .next (s.ratcheting (ratchetPass v s.W) ⟨.blkNext, 0, 0⟩) :=
  runs_words (place := s.ratcheting) (f := fun v i => upd v i s.W[i] Config.colOffs) (done := ⟨.blkNext, 0, 0⟩)
    (fun v i => Move.blkRatchet (s := s.ratcheting v ⟨.blkRatchet, 0, i⟩) ⟨hrst, rfl⟩) v

/-- The state BLK_NEXT finds after a block whose data was `data`, `more` being left on DIN: the persistent state is that
after the block, and the host has taken the block's output (R130). -/
def State.blockDone (s : State) (data more : List Byte) : State :=
  { s with
    S := (afterBlock s.arch).S, ctrLo := (afterBlock s.arch).ctrLo, ctrHi := (afterBlock s.arch).ctrHi
    W := keystreamBlock s.arch, seq := ⟨.blkNext, 0, 0⟩
    io := { s.io with
      din := more, dout := [], taken := s.io.taken ++ (s.io.dout ++ xorBytes data (keystreamBlock s.arch)) } }

/-- The engine and its host are ready for a block: at BLK_LOAD, nothing sent, the host taking. -/
structure State.AtBlock (s : State) : Prop where
  seq : s.seq = ⟨.blkLoad, 0, 0⟩
  released : s.io.rst = false
  taking : s.io.taking = true
  nothingSent : s.xorSent = false

section
variable (s : State) (w : Words) (q : Seq)

theorem working_xorSent : (s.working w q).xorSent = s.xorSent := rfl
theorem working_io : (s.working w q).io = s.io := rfl

/-- The length of a block does not depend on W and SEQ (R138). -/
theorem working_blockLen : (s.working w q).blockLen = s.blockLen := rfl

end

/-- BLK_XOR with its block on DIN, for a host that is taking, and BLK_CTRINC (R138, R139). -/
theorem runs_blkXor_blkCtrinc (hat : s.At .blkXor) (hsent : s.xorSent = false) (htaking : s.io.taking = true)
    {data more : List Byte} (hdin : s.io.din = data ++ more) (hlen : data.length = s.blockLen) :
    runs 2 s = .next { s with
      ctrLo := ctrNextLo s.ctrLo, ctrHi := ctrNextHi s.ctrLo s.ctrHi
      io := { s.io with din := more, dout := [], taken := s.io.taken ++ (s.io.dout ++ xorBytes data s.W) }
      seq := ⟨.blkRatchet, 0, 0⟩ } := by
  have hle : s.blockLen ≤ s.io.din.length := by simp [hdin, hlen]
  have hexec := exec_blkXor_of_taking hsent htaking hle
  rw [← hlen, hdin, List.take_left, List.drop_left] at hexec
  rw [runs_succ 1 ((step_of_microOp hat rfl).trans hexec)]
  refine (Move.blkCtrinc ?_).runs_one
  exact ⟨hat.1, rfl⟩

/-- A block takes 675 steps from BLK_LOAD to BLK_NEXT (R130, R149). -/
theorem runs_block (h : s.AtBlock) {data more : List Byte} (hdin : s.io.din = data ++ more)
    (hlen : data.length = s.blockLen) : runs 675 s = .next (s.blockDone data more) := by
  have hkeystream := runs_keystreamBlock h.released h.seq
  have hsend : runs 2 (s.working (keystreamBlock s.arch) ⟨.blkXor, 0, 0⟩) =
      .next ((s.blockDone data more).ratcheting s.S ⟨.blkRatchet, 0, 0⟩) := by
    rw [runs_blkXor_blkCtrinc (s := s.working (keystreamBlock s.arch) ⟨.blkXor, 0, 0⟩) ⟨h.released, rfl⟩
      (by rw [working_xorSent, h.nothingSent]) (by rw [working_io, h.taking]) (by rw [working_io, hdin])
      (by rw [working_blockLen, hlen])]
    simp only [State.working, State.blockDone, State.ratcheting, afterBlock, State.arch]
  have hratchet := runs_blkRatchet (s := s.blockDone data more) (by simp only [State.blockDone, h.released]) s.S
  have hdone : (s.blockDone data more).ratcheting (ratchetPass s.S (s.blockDone data more).W) ⟨.blkNext, 0, 0⟩ =
      s.blockDone data more := by
    simp only [State.blockDone, State.ratcheting, afterBlock, State.arch]
  rw [hdone] at hratchet
  exact runs_trans hkeystream (runs_trans hsend hratchet)

end Sys2Proof.Machine
end

section
/-! The block loop of a PROCESS. -/

namespace Sys2Proof.Machine

variable {s t : State}

/-- A block changes neither OFF nor LEN, so BLK_NEXT finds the same block length. -/
theorem blockDone_blockLen (s : State) (data more : List Byte) : (s.blockDone data more).blockLen = s.blockLen := by
  simp only [State.blockDone, State.blockLen]

/-- The state in which a PROCESS of at least one byte begins (R25, R27, R149). -/
def State.processAccepted (s : State) (len : Nat) : State :=
  { s with
    latch := { s.latch with op := .process, len := BitVec.ofNat 32 len }, off := 0#32, seq := ⟨.blkLoad, 0, 0⟩ }

/-- The output of `b + 1` blocks is that of the first and then that of `b` more. -/
theorem processBlocks_succ_output (b : Nat) (buf : List Byte) (a : Arch) :
    (processBlocks (b + 1) buf a).2 =
      xorBytes (buf.take Config.blockBytes) (keystreamBlock a) ++
        (processBlocks b (buf.drop Config.blockBytes) (afterBlock a)).2 := rfl

/-- The engine is at BLK_LOAD with `data`, the rest of a PROCESS's buffer, and then `more` on DIN. -/
structure State.HasLeft (s : State) (data more : List Byte) : Prop extends s.AtBlock where
  din : s.io.din = data ++ more
  length : s.off.toNat + data.length = s.latch.len.toNat

/-- `t` is where `b` blocks of a PROCESS over `data`, begun in `s`, leave the engine: idle, with the persistent state
and the output of the command level, `more` left on DIN, its transients but OFF discarded (R130, R141). -/
structure State.ProcessEnds (s t : State) (b : Nat) (data more : List Byte) : Prop where
  arch : t.arch = { (processBlocks b data s.arch).1 with err := 0#3 }
  output : t.output = s.output ++ (processBlocks b data s.arch).2
  seq : t.seq = Seq.idle
  din : t.io.din = more
  cmd : t.io.cmd = s.io.cmd
  w : t.W = freeWords s.draws
  latch : t.latch = freeLatch s.draws

/-- The block at hand is the first 64 bytes of the data left, or all of it (R138). -/
theorem State.HasLeft.blockLen {data more : List Byte} (h : s.HasLeft data more) :
    s.blockLen = min data.length 64 := by
  rw [State.blockLen, ← h.length, Nat.add_sub_cancel_left, Config.blockBytes]

/-- The last block: 676 steps to IDLE (R141). -/
theorem runs_lastBlock {data more : List Byte} (h : s.HasLeft data more) (hle : data.length ≤ 64) :
    ∃ t, runs 676 s = .next t ∧ s.ProcessEnds t 1 data more := by
  have hlen : s.blockLen = data.length := h.blockLen.trans (Nat.min_eq_left hle)
  have hblock := runs_block h.toAtBlock h.din hlen.symm
  have hnext := (Move.blkNextEnds (s := s.blockDone data more) ⟨h.released, rfl⟩ (by
    rw [blockDone_blockLen, hlen]
    simp only [State.blockDone, h.length, Nat.lt_irrefl, not_false_eq_true])).runs_one
  refine ⟨_, runs_trans hblock hnext, ?_⟩
  have hdata : data.take Config.blockBytes = data := List.take_of_length_le hle
  constructor <;> simp [State.blockDone, processBlocks, State.arch, State.output, afterBlock_keyed, hdata]

/-- A block with data left behind it: 676 steps to the next block (R141). -/
theorem runs_fullBlock {data more : List Byte} (h : s.HasLeft data more) (hlt : 64 < data.length) :
    ∃ t, runs 676 s = .next t ∧ t.HasLeft (data.drop 64) more ∧ t.arch = afterBlock s.arch ∧
      t.output = s.output ++ xorBytes (data.take 64) (keystreamBlock s.arch) ∧ t.io.cmd = s.io.cmd ∧
      t.draws = s.draws := by
  have hlen : s.blockLen = 64 := h.blockLen.trans (Nat.min_eq_right hlt.le)
  have hdin : s.io.din = data.take 64 ++ (data.drop 64 ++ more) := by
    rw [← List.append_assoc, List.take_append_drop, h.din]
  have hblock := runs_block h.toAtBlock hdin (by rw [hlen, List.length_take, Nat.min_eq_left hlt.le])
  have hnext := (Move.blkNextLoops (s := s.blockDone (data.take 64) (data.drop 64 ++ more)) ⟨h.released, rfl⟩ (by
    rw [blockDone_blockLen, hlen]
    simp only [State.blockDone, ← h.length]
    omega)).runs_one
  have hoff : (s.off + BitVec.ofNat 32 s.blockLen).toNat = s.off.toNat + 64 := by
    rw [off_add_blockLen_toNat (by rw [← h.length]; omega), hlen]
  have hleft := h.length
  refine ⟨_, runs_trans hblock hnext, ⟨⟨rfl, ?released, ?taking, ?nothingSent⟩, ?din, ?length⟩, ?arch, ?output,
    ?cmd, ?draws⟩
  case length =>
    rw [blockDone_blockLen]
    simp only [State.blockDone, hoff, List.length_drop]
    omega
  case arch => simp [State.blockDone, State.arch, afterBlock]
  case output => simp [State.blockDone, State.output]
  all_goals simp [State.blockDone, h.released, h.taking, h.nothingSent]

/-- The blocks of a PROCESS, 676 steps each (R130, R149). -/
theorem runs_blocks (b : Nat) {data more : List Byte} (h : s.HasLeft data more) (hb : blockCount data.length = b)
    (hpos : 0 < data.length) : ∃ t, runs (676 * b) s = .next t ∧ s.ProcessEnds t b data more := by
  induction b generalizing s data with
  | zero =>
    rw [blockCount] at hb
    omega
  | succ b ih =>
    rw [blockCount] at hb
    rcases Nat.lt_or_ge 64 data.length with hlt | hle
    · obtain ⟨u, hblock, hleft, harch, houtput, hcmd, hdraws⟩ := runs_fullBlock h hlt
      obtain ⟨t, hruns, hends⟩ := ih hleft (by rw [blockCount, List.length_drop]; omega)
        (by rw [List.length_drop]; omega)
      rw [Nat.mul_succ, Nat.add_comm]
      refine ⟨t, runs_trans hblock hruns, ?arch, ?output, hends.seq, hends.din, hends.cmd.trans hcmd, ?w, ?latch⟩
      case arch => rw [hends.arch, harch, processBlocks_succ_state, Config.blockBytes]
      case output => rw [hends.output, houtput, harch, processBlocks_succ_output, Config.blockBytes, List.append_assoc]
      case w => rw [hends.w, hdraws]
      case latch => rw [hends.latch, hdraws]
    · obtain rfl : b = 0 := by omega
      exact runs_lastBlock h hle

end Sys2Proof.Machine
end

section
/-! Settlement about PROCESS as a whole. -/

namespace Sys2Proof.Machine

/-- Settles O51: an empty PROCESS completes in the step that accepts it; any other runs its blocks. -/
theorem processRunsToItsCommandEffect : Obligations.ProcessRunsToItsCommandEffect := by
  intro s data more hready htaking hwf hdin
  have hidle := busy_eq_false_of_seq_eq_idle hready.idle
  have hlen := wellFormed_process.mp hwf
  rcases Nat.eq_zero_or_pos data.length with hzero | hpos
  · obtain rfl : data = [] := List.length_eq_zero_iff.mp hzero
    have hexec := exec_process_of_zero hidle (len := 0) rfl
    rw [complete_eq] at hexec
    refine ⟨_, _, hexec, runs_zero _, ?_⟩
    simp [discardTransients_eq, processCommand, processBlocks, blockCount, State.arch, State.output, hdin]
  · have hne : BitVec.ofNat 32 data.length ≠ 0#32 := fun h => hpos.ne' ((ofNat_eq_zero_iff hlen).mp h)
    have hexec := exec_process_of_ne_zero hidle hne
    have hlatched : 0 + data.length = (BitVec.ofNat 32 data.length).toNat := by rw [toNat_latched hlen, Nat.zero_add]
    have hleft : (s.processAccepted data.length).HasLeft data more :=
      ⟨⟨rfl, hready.released, htaking, hready.nothingSent⟩, hdin, hlatched⟩
    obtain ⟨t, hruns, hends⟩ := runs_blocks _ hleft rfl hpos
    exact ⟨_, t, hexec, hruns, hends.arch, hends.output, hends.seq, hends.din, hends.cmd, hends.w, hends.latch⟩

end Sys2Proof.Machine
end

section
/-! Two engines that differ in registers that are dead in the phase they are in. -/

namespace Sys2Proof.Machine

variable {s t d : State}

/-- At position `q`, the registers among W, OFF and the latches that are still to be read hold the same in `d` as in
`s`: between commands and in RESET none, in INIT the lengths, then key and nonce, then W, in PROCESS LEN and OFF, and W
from BLK_LOAD to the ratchet (R24, R25, R27). -/
def LiveAt (q : Seq) (s d : State) : Prop :=
  match q.ph with
  | .idle | .rstClear => True
  | .ksCheck => d.latch.klen = s.latch.klen ∧ d.latch.nlen = s.latch.nlen
  | .ksPack =>
    (∀ i, packWord d.latch i = packWord s.latch i) ∧ d.latch.nw = s.latch.nw ∧ ∀ j < q.i, d.W[j] = s.W[j]
  | .ksNonce => d.latch.nw = s.latch.nw ∧ d.W = s.W
  | .ksDiffuse | .ksCommit => d.W = s.W
  | .blkLoad | .blkNext => d.latch.len = s.latch.len ∧ d.off = s.off
  | .blkInject | .blkCol | .blkDiag | .blkXor | .blkCtrinc | .blkRatchet =>
    d.W = s.W ∧ d.latch.len = s.latch.len ∧ d.off = s.off

/-- The registers of `d` may stand for the dead ones of `s`. -/
def State.Live (s d : State) : Prop := LiveAt s.seq s d

/-- What is live at the phase the sequencer is at. -/
theorem State.Live.at {ph : Phase} (h : s.Live d) (hat : s.At ph) : LiveAt ⟨ph, s.seq.r, s.seq.i⟩ s d := by
  obtain ⟨-, rfl⟩ := hat
  exact h

/-- A word packed from the same key is the same, whatever KEYBUF holds beyond the key (R112, R116). -/
theorem packWord_congr {l l' : Latch} {key : List Byte} (hne : key ≠ []) (hlen : l.klen.toNat = key.length)
    (hlen' : l'.klen.toNat = key.length) (hbuf : ∀ p : Fin 19, ∀ b, key[p.val]? = some b → l.keybuf[p] = b)
    (hbuf' : ∀ p : Fin 19, ∀ b, key[p.val]? = some b → l'.keybuf[p] = b) (i : Index) :
    packWord l i = packWord l' i := by
  have hbyte (k : Fin 4) : keyByte l i k = keyByte l' i k :=
    Option.some.inj ((getElem?_eq_some_keyByte hne hlen hbuf i k).symm.trans
      (getElem?_eq_some_keyByte hne hlen' hbuf' i k))
  simp only [packWord, hbyte]

/-- The registers KS_CHECK leaves when the lengths are valid (R111). -/
theorem takeOperands_of_checked (h : initErrors s.latch.klen.toNat s.latch.nlen.toNat = 0#3) :
    takeOperands s = { s with
      latch := { s.latch with
        keybuf := storeKey s.latch.keybuf (s.io.din.take s.latch.klen.toNat)
        nw := nonceWords ((s.io.din.drop s.latch.klen.toNat).take s.latch.nlen.toNat) }
      io := { s.io with din := s.io.din.drop s.operandLen } } := by
  have hnonce : s.latch.nlen.toNat = Config.nonceBytes := ((initErrors_eq_zero _ _).mp h).2
  simp only [takeOperands, if_pos hnonce, State.setLatch, State.setIo]

/-- The end of BLK_XOR does not touch the dead registers. -/
theorem leaveXor_withDead (s d : State) : leaveXor (s.withDead d) = (leaveXor s).withDead d := by
  rw [leaveXor_eq, leaveXor_eq]
  rfl

/-- The end of BLK_XOR leaves the live registers as they are. -/
theorem live_leaveXor (hph : s.seq.ph = .blkXor) (h : d.W = s.W ∧ d.latch.len = s.latch.len ∧ d.off = s.off) :
    (leaveXor s).Live d := by
  rw [leaveXor_eq]
  simp only [State.Live]
  split_ifs
  · exact h
  · simp only [LiveAt, hph]
    exact h

/-- The number of operand bytes is read from the live lengths. -/
theorem operandLen_withDead (hklen : d.latch.klen = s.latch.klen) (hnlen : d.latch.nlen = s.latch.nlen) :
    (s.withDead d).operandLen = s.operandLen := by
  simp only [State.withDead, State.operandLen, hklen, hnlen]

/-- The length of a block is read from the live LEN and OFF. -/
theorem blockLen_withDead (hlen : d.latch.len = s.latch.len) (hoff : d.off = s.off) :
    (s.withDead d).blockLen = s.blockLen := by
  simp only [State.withDead, State.blockLen, hlen, hoff]

/-- Valid operands give the same key words and nonce words whatever KEYBUF and NW held before (R111). -/
theorem takeOperands_withDead (hdin : s.operandLen ≤ s.io.din.length)
    (herr : initErrors s.latch.klen.toNat s.latch.nlen.toNat = 0#3) (hklen : d.latch.klen = s.latch.klen)
    (hnlen : d.latch.nlen = s.latch.nlen) :
    takeOperands (s.withDead d) = (takeOperands s).withDead (takeOperands (s.withDead d)) ∧
      (∀ i, packWord (takeOperands (s.withDead d)).latch i = packWord (takeOperands s).latch i) ∧
      (takeOperands (s.withDead d)).latch.nw = (takeOperands s).latch.nw := by
  have herr' : initErrors (s.withDead d).latch.klen.toNat (s.withDead d).latch.nlen.toNat = 0#3 := by
    simp only [State.withDead, hklen, hnlen, herr]
  have hpos : s.latch.klen.toNat ≠ 0 := ((initErrors_eq_zero _ _).mp herr).1
  have hkeyLength : (s.io.din.take s.latch.klen.toNat).length = s.latch.klen.toNat := by
    rw [State.operandLen] at hdin
    rw [List.length_take]
    omega
  have hkey : s.io.din.take s.latch.klen.toNat ≠ [] := List.ne_nil_of_length_pos (by omega)
  rw [takeOperands_of_checked herr, takeOperands_of_checked herr', operandLen_withDead hklen hnlen]
  simp only [State.withDead, hklen, hnlen, true_and, and_true]
  exact packWord_congr hkey hkeyLength.symm hkeyLength.symm (fun p b hb => storeKey_of_getElem? _ hb)
    fun p b hb => storeKey_of_getElem? _ hb

/-- Below the next index is up to this one. -/
theorem index_le_of_lt_add_one {i j : Index} (hi : i.val < 15) (h : j < i + 1) : j ≤ i := by
  have hval : (i + 1).val = (i.val + 1) % 16 := Fin.val_add i 1
  rw [Fin.lt_def, hval] at h
  rw [Fin.le_def]
  omega

/-- Writing the same word at `i` into two arrays that agree below it makes them agree up to it. -/
theorem set_agrees_upTo {a b : Words} {i : Index} (h : ∀ j < i, b[j] = a[j]) (v : Word) :
    ∀ j ≤ i, (b.set i v)[j] = (a.set i v)[j] := by
  intro j hj
  by_cases heq : j = i
  · rw [heq, words_set_self, words_set_self]
  · rw [words_set_other _ _ heq, words_set_other _ _ heq, h j (lt_of_le_of_ne hj heq)]

/-- A move is a move with other contents of the dead registers, to a state that again differs in dead registers only. -/
theorem Move.withDead (h : Move s t) (hlive : s.Live d) :
    ∃ v, Move (s.withDead d) v ∧ v = t.withDead v ∧ t.Live v := by
  cases h with
  | reset hrst => exact ⟨_, .reset hrst, rfl, trivial⟩
  | idleWaits hat hcmd => exact ⟨_, .idleWaits hat hcmd, rfl, hlive⟩
  | illegal hat hcmd hdecode =>
    refine ⟨_, .illegal hat hcmd hdecode, ?_, trivial⟩
    rw [illegalCommand_eq, illegalCommand_eq]
    rfl
  | initAccepted hacc => exact ⟨_, .initAccepted hacc, rfl, rfl, rfl⟩
  | emptyAccepted hacc hlen =>
    refine ⟨_, .emptyAccepted hacc hlen, ?_, trivial⟩
    rw [complete_eq, complete_eq]
    rfl
  | processAccepted hacc hlen => exact ⟨_, .processAccepted hacc hlen, rfl, rfl, rfl⟩
  | resetAccepted hacc => exact ⟨_, .resetAccepted hacc, rfl, trivial⟩
  | ksCheckWaits hat hdin =>
    obtain ⟨hklen, hnlen⟩ := hlive.at hat
    have hoperands := operandLen_withDead (s := s) hklen hnlen
    exact ⟨_, .ksCheckWaits hat (hoperands ▸ hdin), rfl, hlive⟩
  | ksCheckFails hat hdin herr =>
    obtain ⟨hklen, hnlen⟩ := hlive.at hat
    have hoperands := operandLen_withDead (s := s) hklen hnlen
    refine ⟨_, .ksCheckFails hat (hoperands ▸ hdin) ?_, ?_, trivial⟩
    · simpa only [State.withDead, hklen, hnlen] using herr
    · rw [raiseErr_eq, raiseErr_eq, takeOperands_frame s, takeOperands_frame (s.withDead d), hoperands]
      simp only [State.withDead, hklen, hnlen]
  | ksCheckPasses hat hdin herr =>
    obtain ⟨hklen, hnlen⟩ := hlive.at hat
    have herr' : initErrors d.latch.klen.toNat d.latch.nlen.toNat = 0#3 := by rw [hklen, hnlen, herr]
    obtain ⟨hframe, hkey, hnw⟩ := takeOperands_withDead hdin herr hklen hnlen
    refine ⟨_, .ksCheckPasses hat (operandLen_withDead hklen hnlen ▸ hdin) herr', ?_, hkey, hnw, fun j hj => ?_⟩
    · rw [hframe]
      rfl
    · exact absurd hj (Fin.not_lt_zero j)
  | ksPack hat =>
    obtain ⟨hkey, hnw, hpacked⟩ := hlive.at hat
    refine ⟨_, .ksPack hat, rfl, ?_⟩
    have hset (j : Index) (hj : j ≤ s.seq.i) : (d.W.set s.seq.i (packWord d.latch s.seq.i))[j] =
        (s.W.set s.seq.i (packWord s.latch s.seq.i))[j] := by
      rw [hkey]
      exact set_agrees_upTo hpacked _ j hj
    refine nextWord_mem_of_bound (P := fun q => LiveAt q _ _) (fun hi => ?_) fun hi => ?_
    · exact ⟨hkey, hnw, fun j hj => hset j (index_le_of_lt_add_one hi hj)⟩
    · exact ⟨hnw, words_ext fun j => hset j (Fin.le_def.mpr (by omega))⟩
  | ksNonce hat =>
    obtain ⟨hnw, hW⟩ := hlive.at hat
    refine ⟨_, .ksNonce hat, rfl, ?_⟩
    have hfold : foldNonceWord d.W (nonceWord d.latch s.seq.r) s.seq.i =
        foldNonceWord s.W (nonceWord s.latch s.seq.r) s.seq.i := by simp only [hW, nonceWord, hnw]
    exact nextRound_mem (P := fun q => LiveAt q _ _) ⟨hnw, hfold⟩ (fun _ => ⟨hnw, hfold⟩) hfold
  | ksDiffuse hat =>
    have hW : d.W = s.W := hlive.at hat
    refine ⟨_, .ksDiffuse hat, rfl, ?_⟩
    have hupd : upd d.W s.seq.i 0#32 Config.colOffs = upd s.W s.seq.i 0#32 Config.colOffs := by rw [hW]
    exact nextRound_mem (P := fun q => LiveAt q _ _) hupd (fun _ => hupd) hupd
  | ksCommit hat =>
    have hW : d.W = s.W := hlive.at hat
    refine ⟨_, .ksCommit hat, ?_, trivial⟩
    simp only [State.withDead, complete_eq, hW]
  | blkLoad hat => exact ⟨_, .blkLoad hat, rfl, rfl, hlive.at hat⟩
  | blkInject hat =>
    obtain ⟨hW, hbuffer⟩ := hlive.at hat
    refine ⟨_, .blkInject hat, rfl, ?_⟩
    have hinject : injectWord d.W s.ctrLo s.ctrHi s.seq.i = injectWord s.W s.ctrLo s.ctrHi s.seq.i := by rw [hW]
    exact nextWord_mem (P := fun q => LiveAt q _ _) ⟨hinject, hbuffer⟩ ⟨hinject, hbuffer⟩
  | blkCol hat =>
    obtain ⟨hW, hbuffer⟩ := hlive.at hat
    refine ⟨_, .blkCol hat, rfl, ?_⟩
    have hupd : upd d.W s.seq.i 0#32 Config.colOffs = upd s.W s.seq.i 0#32 Config.colOffs := by rw [hW]
    exact nextWord_mem (P := fun q => LiveAt q _ _) ⟨hupd, hbuffer⟩ ⟨hupd, hbuffer⟩
  | blkDiag hat =>
    obtain ⟨hW, hbuffer⟩ := hlive.at hat
    refine ⟨_, .blkDiag hat, rfl, ?_⟩
    have hupd : upd d.W (Config.diaStride * s.seq.i) 0#32 Config.diaOffs =
        upd s.W (Config.diaStride * s.seq.i) 0#32 Config.diaOffs := by rw [hW]
    exact nextRound_mem (P := fun q => LiveAt q _ _) ⟨hupd, hbuffer⟩ (fun _ => ⟨hupd, hbuffer⟩) ⟨hupd, hbuffer⟩
  | blkXorWaits hat hsent hdin =>
    obtain ⟨hW, hlen, hoff⟩ := hlive.at hat
    have hblock := blockLen_withDead hlen hoff
    exact ⟨_, .blkXorWaits hat hsent (hblock ▸ hdin), rfl, hlive⟩
  | blkXorSends hat hsent hdin =>
    obtain ⟨hW, hlen, hoff⟩ := hlive.at hat
    have hblock := blockLen_withDead hlen hoff
    have hsend : sendBlock s.blockLen (s.withDead d) = (sendBlock s.blockLen s).withDead d := by
      simp only [sendBlock, State.setIo, State.withDead, hW]
    refine ⟨_, .blkXorSends hat hsent (hblock ▸ hdin), ?_⟩
    rw [hblock, hsend, leaveXor_withDead]
    exact ⟨rfl, live_leaveXor hat.2 ⟨hW, hlen, hoff⟩⟩
  | blkXorSent hat hsent =>
    refine ⟨_, .blkXorSent hat hsent, ?_⟩
    rw [leaveXor_withDead]
    exact ⟨rfl, live_leaveXor hat.2 (hlive.at hat)⟩
  | blkCtrinc hat => exact ⟨_, .blkCtrinc hat, rfl, hlive.at hat⟩
  | blkRatchet hat =>
    obtain ⟨hW, hbuffer⟩ := hlive.at hat
    refine ⟨_, .blkRatchet hat, ?_, nextWord_mem (P := fun q => LiveAt q _ _) ⟨hW, hbuffer⟩ hbuffer⟩
    simp only [State.withDead, hW]
  | blkNextLoops hat hmore =>
    obtain ⟨hlen, hoff⟩ := hlive.at hat
    have hblock := blockLen_withDead hlen hoff
    refine ⟨_, .blkNextLoops hat ?_, rfl, hlen, ?_⟩
    · rw [hblock]
      simpa only [State.withDead, hlen, hoff] using hmore
    · rw [hblock]
      simp only [State.withDead, hoff]
  | blkNextEnds hat hdone =>
    obtain ⟨hlen, hoff⟩ := hlive.at hat
    have hblock := blockLen_withDead hlen hoff
    refine ⟨_, .blkNextEnds hat ?_, ?_, trivial⟩
    · rw [hblock]
      simpa only [State.withDead, hlen, hoff] using hdone
    · simp only [State.withDead, complete_eq]
  | rstClear hat => exact ⟨_, .rstClear hat, rfl, trivial⟩

end Sys2Proof.Machine
end

section
/-! Settlement about the dead registers. -/

namespace Sys2Proof.Machine

/-- Runs of two engines that differ in dead registers end in states that differ in dead registers. -/
theorem runs_withDead (k : Nat) {s d : State} (hlive : s.Live d) :
    ∃ t v, runs k s = .next t ∧ runs k (s.withDead d) = .next v ∧ v = t.withDead v := by
  induction k generalizing s d with
  | zero => exact ⟨s, s.withDead d, rfl, rfl, rfl⟩
  | succ k ih =>
    obtain ⟨t, hmove⟩ := exists_move s
    obtain ⟨v, hmove', hv, hlive'⟩ := hmove.withDead hlive
    rw [runs_succ k hmove.step_eq_next, runs_succ k hmove'.step_eq_next, hv]
    exact ih hlive'

/-- Settles O47: between commands nothing is live, and STATUS, the output and the persistent state are never dead. -/
theorem deadRegistersAreNeverObserved : Obligations.DeadRegistersAreNeverObserved := by
  intro s d k _ hidle
  have hlive : s.Live d := by simp only [State.Live, LiveAt, hidle]
  obtain ⟨t, v, hruns, hruns', hv⟩ := runs_withDead k hlive
  refine ⟨t, v, hruns, hruns', ?_, ?_⟩ <;> rw [hv] <;> rfl

end Sys2Proof.Machine
end
